-- ==== Sys2Proof/Word.lean ====
section
/-! DEFINITION. The plain data the block moves: bytes, addresses, ports, the frame record, and the two names of an instance.
Nothing here computes; every computation stands in a file a later repair may mend. -/

namespace Sys2Proof

/-- R14: a byte is 8 bits. -/
abbrev Byte := BitVec 8

/-- R21, R130: the width of the checksum and of the running remainder. -/
abbrev Crc := BitVec 32

/-- R13: a peer address is an opaque value of `ADDRW` bits; the spec's default width, 32, is taken (log 9). -/
abbrev Addr := BitVec 32

/-- R11: `PORT_DATA` and `PORT_ACK` are 16-bit values. -/
abbrev Port := BitVec 16

/-- R20: the two kinds of instance. A system has one of each. -/
inductive Role where
  | sender
  | receiver
  deriving DecidableEq, Repr, Inhabited

/-- R153: the decoded frame record with its raw fields (`fin` is the spec's `end`, a word of Lean's). -/
structure Frame where
  seq     : BitVec 32
  ack     : BitVec 8
  fin     : BitVec 8
  cks     : BitVec 64
  payload : List Byte
  deriving DecidableEq, Repr, Inhabited

/-- R152, R250 (E5): why a datagram is malformed. -/
inductive Malformed where
  | tooShort
  | tooLong
  deriving DecidableEq, Repr

/-- What is presented to the block for decoding. `op`: an operation started at the interface of instance `who`, as its label byte
(R108) and its operand bytes (the layout of the operand bytes is the model's, log 3). `datagram`: the wire bytes of one datagram
(R90, R103) which the transport hands to instance `dest`, with the source address the transport reports (R194, R212). -/
inductive Request where
  | op       (who : Role) (bytes : List Byte)
  | datagram (dest : Role) (src : Addr) (wire : List Byte)
  deriving DecidableEq, Repr

end Sys2Proof
end

