-- ==== Sys2Proof/Config.lean ====
section
/-! DEFINITION. What is fixed for this hardware (R8, R9, R10, R12) and the free values the spec leaves open: the draws of the
fault injector (R234, R236, R237; U23) and the addresses that are unspecified after a reset (R43; U14). -/

namespace Sys2Proof.Config

/-- R8: the largest payload of one frame, in bytes. -/
abbrev packetSize : Nat := 1400

/-- R8: the header of every frame, in bytes. -/
abbrev headerSize : Nat := 14

/-- R8: the longest frame, `HEADERSIZE + PACKETSIZE`. -/
abbrev maxFrame : Nat := 1414

/-- R9, R36: the default of `TIMEOUT_MS`, in milliseconds. -/
def defaultTimeoutMs : BitVec 32 := 300

/-- R12, R36: the default of `RX_DEDUP` is 0. -/
def defaultRxDedup : Bool := false

/-- R10: the parameter `CRC_PARAMS`, a reflected CRC-32 variant (log 13). -/
structure CrcParams where
  /-- the generator polynomial, bit-reversed -/
  poly   : Crc
  init   : Crc
  xorOut : Crc
  deriving DecidableEq, Repr

/-- R10, R130 (D1): the value of `CRC_PARAMS` for this hardware. -/
def crc : CrcParams := ⟨0xEDB88320, 0xFFFFFFFF, 0xFFFFFFFF⟩

/-- R10: "a configuration field `crc32 : bytes -> 32-bit value`", so that a claim may be stated for any checksum. Whatever the block does
with a frame's checksum goes through this field; `Machine.hardware` is its value for this hardware (log 13). The shift register of CRC.INIT,
CRC.UPDATE and CRC.READ, which only one variant has, takes `crc` above. -/
structure Parameters where
  crc32 : List Byte → Crc

/-- One draw of a fault injector (R234, R236, R237): three independent outcomes, the choice among the triggered kinds, and the byte
index of the bit error. -/
structure Draw where
  bitError  : Nat
  loss      : Nat
  duplicate : Nat
  choice    : Nat
  index     : Nat
  deriving DecidableEq, Repr, Inhabited

/-- FREE VALUE (log 19): the `n`-th draw of the injectors. The spec makes each draw a free choice (R240, U23), so it has no body. -/
opaque draw : Nat → Draw

/-- FREE VALUE (log 8): the address an unspecified register holds after the `n`-th free value was drawn (R43, U14). No body. -/
opaque freeAddr : Nat → Addr

end Sys2Proof.Config
end

