-- ==== Sys2Proof/Machine/Operands.lean ====
section
/-! DEFINITION. The operand forms: big-endian integers (R14, R63), slices (R14), the fields of the wire frame (R90 to R98) and the
logical views of a decoded frame (R153). -/

namespace Sys2Proof.Machine

/-- R14: `be_n(v)`, the `n`-byte big-endian serialisation of `v`; byte 0 holds the most significant eight bits. -/
def be : Nat → Nat → List Byte
  | 0, _ => []
  | n + 1, v => BitVec.ofNat 8 (v / 256 ^ n) :: be n v

/-- R14: `from_be(B)`, the sum of `B[i] * 256^(len(B)-1-i)`. -/
def fromBe : List Byte → Nat
  | [] => 0
  | b :: bs => b.toNat * 256 ^ bs.length + fromBe bs

/-- R14: `B[a..b)`. -/
def slice (a b : Nat) (bytes : List Byte) : List Byte := (bytes.drop a).take (b - a)

/-- `zext_N` of a one-bit value (R14). -/
def zextBit (n : Nat) (bit : Bool) : BitVec n := BitVec.ofNat n bit.toNat

/-- R92, R93, R94: the six header bytes in front of the checksum, from the raw fields. -/
def headerBytes (seq : BitVec 32) (ack fin : Byte) : List Byte := be 4 seq.toNat ++ [ack, fin]

/-- R154: the six header bytes of a frame record, as received. -/
def frameHeader (f : Frame) : List Byte := headerBytes f.seq f.ack f.fin

/-- R90: the wire bytes of a frame record: header, checksum field, payload. -/
def frameWire (f : Frame) : List Byte := frameHeader f ++ be 8 f.cks.toNat ++ f.payload

/-- R152: the structural parse of one datagram; its only failures are the two length conditions. -/
def parseFrame (wire : List Byte) : Except Malformed Frame :=
  if wire.length < Config.headerSize then .error .tooShort
  else if Config.maxFrame < wire.length then .error .tooLong
  else .ok
    { seq := BitVec.ofNat 32 (fromBe (slice 0 4 wire))
      ack := wire.getD 4 0
      fin := wire.getD 5 0
      cks := BitVec.ofNat 64 (fromBe (slice 6 14 wire))
      payload := wire.drop 14 }

/-- R91: the six-byte prefix `P`, which selects the frame kind. -/
def framePrefix (wire : List Byte) : Nat := fromBe (slice 0 6 wire)

/-- R153: `sequenceBit = seq[0]`. -/
def sequenceBit (f : Frame) : Bool := f.seq.getLsbD 0

/-- R153, R93: `isAck` is true exactly when `ack = 1`. -/
def isAck (f : Frame) : Bool := f.ack == 1

/-- R153, R94: `isFinal` is true exactly when `end = 1`. -/
def isFinal (f : Frame) : Bool := f.fin == 1

/-- R153: `checksum = cks[31:0]`. -/
def checksumView (f : Frame) : Crc := f.cks.setWidth 32

end Sys2Proof.Machine
end

