-- ==== Sys2Proof/Machine/Flags.lean ====
section
/-! DEFINITION. The flag computations of R34: the CRC-32 function (R130 to R134), `valid` (R154), `wellformed` (R155), and the
acceptance both machines begin with (R194, R211). What a frame's checksum decides is written for any value of the configuration field
`crc32` (R10): `validWith`, `acceptWith`, `buildWith`, `encodeWith`, `crcAfter`. The names without it are those of this hardware. -/

namespace Sys2Proof.Machine

/-- R130, R132: one shift step. -/
def crcShift (poly t : Crc) : Crc := if t.getLsbD 0 then (t >>> 1) ^^^ poly else t >>> 1

/-- `n` shift steps. -/
def crcShifts (poly : Crc) : Nat → Crc → Crc
  | 0, t => t
  | n + 1, t => crcShifts poly n (crcShift poly t)

/-- R130: `crc_step(acc, b)`: the byte enters at the low end, then eight shift steps. -/
def crcStep (p : Config.CrcParams) (acc : Crc) (b : Byte) : Crc := crcShifts p.poly 8 (acc ^^^ b.setWidth 32)

/-- R134, R136 (c): the accumulator after the bytes of a sequence, in order. -/
def crcRun (p : Config.CrcParams) (acc : Crc) (bytes : List Byte) : Crc := bytes.foldl (crcStep p) acc

/-- R133: what a read of the accumulator gives. -/
def crcFinish (p : Config.CrcParams) (acc : Crc) : Crc := acc ^^^ p.xorOut

/-- R130 for any variant. -/
def crcOf (p : Config.CrcParams) (bytes : List Byte) : Crc := crcFinish p (crcRun p p.init bytes)

/-- R130: `crc32(B)`. -/
def crc32 (bytes : List Byte) : Crc := crcOf Config.crc bytes

/-- R10: the configuration of this hardware. -/
def hardware : Config.Parameters := ⟨crc32⟩

/-- R134: the accumulator after `CRC.COMPUTE(B)`, from which a read gives `crc32(B)` (R133). -/
def crcAfter (k : Config.Parameters) (bytes : List Byte) : Crc := k.crc32 bytes ^^^ Config.crc.xorOut

/-- R98: the bytes the checksum of a frame record covers: the six header bytes as received, then the payload. -/
def coveredBytes (f : Frame) : List Byte := frameHeader f ++ f.payload

/-- R154: `ISVALID(F)`; all 64 bits of the field take part. -/
def validWith (k : Config.Parameters) (f : Frame) : Bool := f.cks == (k.crc32 (coveredBytes f)).setWidth 64

/-- R154, for this hardware. -/
abbrev frameValid (f : Frame) : Bool := validWith hardware f

/-- R155: `ISWELLFORMED(F)`. -/
def frameWellFormed (f : Frame) : Bool := decide (f.seq.toNat ≤ 1) && decide (f.ack.toNat ≤ 1) && decide (f.fin.toNat ≤ 1)

/-- R211, and the first three tests of R194: the datagram decodes, is well-formed and is valid. `none` is the discard. -/
def acceptWith (k : Config.Parameters) (wire : List Byte) : Option Frame :=
  match parseFrame wire with
  | .error _ => none
  | .ok f => if frameWellFormed f && validWith k f then some f else none

/-- R194, R211, for this hardware. -/
abbrev acceptableFrame (wire : List Byte) : Option Frame := acceptWith hardware wire

/-- R150: the frame record `ENCODE(s, a, f, B)` builds, with its checksum. -/
def buildWith (k : Config.Parameters) (s a f : Bool) (payload : List Byte) : Frame :=
  { seq := zextBit 32 s
    ack := zextBit 8 a
    fin := zextBit 8 f
    cks := (k.crc32 (headerBytes (zextBit 32 s) (zextBit 8 a) (zextBit 8 f) ++ payload)).setWidth 64
    payload := payload }

/-- R150: the wire bytes of `ENCODE(s, a, f, B)`, for a payload the operation accepts. -/
def encodeWith (k : Config.Parameters) (s a f : Bool) (payload : List Byte) : List Byte := frameWire (buildWith k s a f payload)

/-- R150, for this hardware. -/
abbrev builtFrame (s a f : Bool) (payload : List Byte) : Frame := buildWith hardware s a f payload

/-- R150, for this hardware. -/
abbrev encodeBytes (s a f : Bool) (payload : List Byte) : List Byte := encodeWith hardware s a f payload

end Sys2Proof.Machine
end

