-- ==== Sys2Proof/Syntax.lean ====
section
/-! DEFINITION. The operations of the block: one constructor per row of spec/opcode_table.json, in its order (R99, R108).
The eight frame kinds stand for the arrival of that frame at an instance; the twenty operations carry the operands of R108. -/

namespace Sys2Proof

/-- The rows of the opcode table. A frame kind carries what its 48-bit prefix leaves open: the instance the transport hands it to,
the source address, the 64-bit checksum field and the payload (R90, R99). An operation both instances have carries the instance
that performs it (R108, column "instance"). -/
inductive Instr where
  | data0  (dest : Role) (src : Addr) (cks : BitVec 64) (payload : List Byte)
  | data0f (dest : Role) (src : Addr) (cks : BitVec 64) (payload : List Byte)
  | ack0   (dest : Role) (src : Addr) (cks : BitVec 64) (payload : List Byte)
  | ack0f  (dest : Role) (src : Addr) (cks : BitVec 64) (payload : List Byte)
  | data1  (dest : Role) (src : Addr) (cks : BitVec 64) (payload : List Byte)
  | data1f (dest : Role) (src : Addr) (cks : BitVec 64) (payload : List Byte)
  | ack1   (dest : Role) (src : Addr) (cks : BitVec 64) (payload : List Byte)
  | ack1f  (dest : Role) (src : Addr) (cks : BitVec 64) (payload : List Byte)
  | reset (who : Role)
  | cfgInit (who : Role) (bindOk : Bool)
  | crcInit (who : Role)
  | crcUpdate (who : Role) (b : Byte)
  | crcRead (who : Role)
  | crcCompute (who : Role) (bytes : List Byte)
  | codecEncode (who : Role) (s a f : Bool) (payload : List Byte)
  | codecDecode (who : Role) (wire : List Byte)
  | codecIsValid (who : Role) (frame : Frame)
  | codecIsWellFormed (who : Role) (frame : Frame)
  | tmrStart (delay : BitVec 32)
  | tmrCancel
  | tmrTick
  | tmrExpire
  | txLoad (buf : List Byte) (dest : Addr)
  | txSendPacket
  | txTimeout
  | txPacketReceived
  | txRecv (wire : List Byte) (src : Addr)
  | rxRecv (wire : List Byte) (src : Addr)
  deriving DecidableEq, Repr

end Sys2Proof
end

