-- ==== Sys2Proof/WellFormed.lean ====
section
/-! DEFINITION. When an instruction is well-formed as syntax: a frame, and a frame record, has a payload of at most 1400 bytes
(R90, R97, R153). ENCODE's payload has no such bound: a longer one is an operand the operation answers with an error (R150). -/

namespace Sys2Proof

/-- R90, R97: the length limit of a frame's payload. -/
def payloadFits (payload : List Byte) : Bool := decide (payload.length ≤ Config.packetSize)

/-- The check of every constructor's operands. -/
def Instr.wellFormed : Instr → Bool
  | .data0 _ _ _ payload => payloadFits payload
  | .data0f _ _ _ payload => payloadFits payload
  | .ack0 _ _ _ payload => payloadFits payload
  | .ack0f _ _ _ payload => payloadFits payload
  | .data1 _ _ _ payload => payloadFits payload
  | .data1f _ _ _ payload => payloadFits payload
  | .ack1 _ _ _ payload => payloadFits payload
  | .ack1f _ _ _ payload => payloadFits payload
  | .codecIsValid _ frame => payloadFits frame.payload
  | .codecIsWellFormed _ frame => payloadFits frame.payload
  | .reset _ => true
  | .cfgInit _ _ => true
  | .crcInit _ => true
  | .crcUpdate _ _ => true
  | .crcRead _ => true
  | .crcCompute _ _ => true
  | .codecEncode _ _ _ _ _ => true
  | .codecDecode _ _ => true
  | .tmrStart _ => true
  | .tmrCancel => true
  | .tmrTick => true
  | .tmrExpire => true
  | .txLoad _ _ => true
  | .txSendPacket => true
  | .txTimeout => true
  | .txPacketReceived => true
  | .txRecv _ _ => true
  | .rxRecv _ _ => true

end Sys2Proof
end

