-- ==== Sys2Proof/Decode.lean ====
section
/-! DEFINITION. Decoding a request: wire bytes by the six-byte prefix (R91, R99, R101), an operation by its label (R108). Total on any
bytes; every rejection has a name. The encoder follows, from the same tables. The operand bytes behind a label are the model's own
layout, since the spec gives operations no binary encoding (R107; log 3). -/

namespace Sys2Proof

/-- Why a request names no instruction. -/
inductive DecodeError where
  /-- R108: the label is not in the table; there is no such operation -/
  | noOperation
  /-- R108, column "instance": this instance does not have the operation -/
  | wrongInstance
  /-- the operand bytes are not as many as the operation takes (log 3) -/
  | operandLength
  /-- a one-bit operand byte holds neither 0 nor 1 (log 3) -/
  | operandRange
  /-- R101 (a), (b): the datagram is malformed -/
  | malformed (why : Malformed)
  /-- R101 (c): the prefix is none of the eight kinds -/
  | illFormed
  deriving DecidableEq, Repr

open Machine (be fromBe slice frameWire parseFrame framePrefix)

/-- R99: the frame kind of a datagram's wire bytes, by the 48-bit prefix. -/
def decodeFrame (dest : Role) (src : Addr) (wire : List Byte) : Except DecodeError Instr :=
  match parseFrame wire with
  | .error why => .error (.malformed why)
  | .ok f =>
    match framePrefix wire with
    | 0x000000000000 => .ok (.data0 dest src f.cks f.payload)
    | 0x000000000001 => .ok (.data0f dest src f.cks f.payload)
    | 0x000000000100 => .ok (.ack0 dest src f.cks f.payload)
    | 0x000000000101 => .ok (.ack0f dest src f.cks f.payload)
    | 0x000000010000 => .ok (.data1 dest src f.cks f.payload)
    | 0x000000010001 => .ok (.data1f dest src f.cks f.payload)
    | 0x000000010100 => .ok (.ack1 dest src f.cks f.payload)
    | 0x000000010101 => .ok (.ack1f dest src f.cks f.payload)
    | _ => .error .illFormed

/-- An operation without operands. -/
def noOperands (args : List Byte) (i : Instr) : Except DecodeError Instr :=
  match args with
  | [] => .ok i
  | _ :: _ => .error .operandLength

/-- A one-bit operand in a byte of its own. -/
def bitOperand (b : Byte) : Except DecodeError Bool :=
  if b = 0 then .ok false else if b = 1 then .ok true else .error .operandRange

/-- A four-byte big-endian operand in front of a byte sequence (an address or a delay). -/
def wordOperand (args : List Byte) : Except DecodeError (BitVec 32 × List Byte) :=
  if args.length < 4 then .error .operandLength
  else .ok (BitVec.ofNat 32 (fromBe (slice 0 4 args)), args.drop 4)

/-- A frame-record operand, in the layout of the wire frame. -/
def frameOperand (args : List Byte) : Except DecodeError Frame :=
  match parseFrame args with
  | .error _ => .error .operandLength
  | .ok f => .ok f

/-- ENCODE's operands: three one-bit operands, then the payload. -/
def encodeOperands (who : Role) (args : List Byte) : Except DecodeError Instr :=
  match args with
  | s :: a :: f :: payload =>
    match bitOperand s, bitOperand a, bitOperand f with
    | .ok s, .ok a, .ok f => .ok (.codecEncode who s a f payload)
    | _, _, _ => .error .operandRange
  | _ => .error .operandLength

/-- R108: operations only one kind of instance has. -/
def onlyOn (has who : Role) (r : Except DecodeError Instr) : Except DecodeError Instr :=
  if has = who then r else .error .wrongInstance

/-- R108: the operation a label names, presented at the interface of instance `who`, with its operand bytes. -/
def decodeLabel (who : Role) (label : Byte) (args : List Byte) : Except DecodeError Instr :=
  match label.toNat with
  | 0x00 => noOperands args (.reset who)
  | 0x01 =>
    match args with
    | [b] => (bitOperand b).map (.cfgInit who)
    | _ => .error .operandLength
  | 0x10 => noOperands args (.crcInit who)
  | 0x11 =>
    match args with
    | [b] => .ok (.crcUpdate who b)
    | _ => .error .operandLength
  | 0x12 => noOperands args (.crcRead who)
  | 0x13 => .ok (.crcCompute who args)
  | 0x20 => encodeOperands who args
  | 0x21 => .ok (.codecDecode who args)
  | 0x22 => (frameOperand args).map (.codecIsValid who)
  | 0x23 => (frameOperand args).map (.codecIsWellFormed who)
  | 0x30 => onlyOn .sender who
    (match wordOperand args with
     | .error e => .error e
     | .ok (d, more) => noOperands more (.tmrStart d))
  | 0x31 => onlyOn .sender who (noOperands args .tmrCancel)
  | 0x32 => onlyOn .sender who (noOperands args .tmrTick)
  | 0x33 => onlyOn .sender who (noOperands args .tmrExpire)
  | 0x40 => onlyOn .sender who ((wordOperand args).map fun x => .txLoad x.2 x.1)
  | 0x41 => onlyOn .sender who (noOperands args .txSendPacket)
  | 0x42 => onlyOn .sender who (noOperands args .txTimeout)
  | 0x43 => onlyOn .sender who (noOperands args .txPacketReceived)
  | 0x44 => onlyOn .sender who ((wordOperand args).map fun x => .txRecv x.2 x.1)
  | 0x50 => onlyOn .receiver who ((wordOperand args).map fun x => .rxRecv x.2 x.1)
  | _ => .error .noOperation

/-- The decoder. -/
def decode : Request → Except DecodeError Instr
  | .op _ [] => .error .noOperation
  | .op who (label :: args) => decodeLabel who label args
  | .datagram dest src wire => decodeFrame dest src wire

/-- A one-bit operand's byte. -/
def bitByte (b : Bool) : Byte := if b then 1 else 0

/-- R90, R92, R93, R94: a frame's wire bytes from its kind (sequence, ACK and END fields), checksum field and payload. -/
def encodeFrame (dest : Role) (src : Addr) (seq : BitVec 32) (ack fin : Byte) (cks : BitVec 64) (payload : List Byte) : Request :=
  .datagram dest src (frameWire ⟨seq, ack, fin, cks, payload⟩)

/-- The encoder: R99 for a frame kind, R108 and log 3 for an operation. -/
def encode : Instr → Request
  | .data0 dest src cks payload => encodeFrame dest src 0 0 0 cks payload
  | .data0f dest src cks payload => encodeFrame dest src 0 0 1 cks payload
  | .ack0 dest src cks payload => encodeFrame dest src 0 1 0 cks payload
  | .ack0f dest src cks payload => encodeFrame dest src 0 1 1 cks payload
  | .data1 dest src cks payload => encodeFrame dest src 1 0 0 cks payload
  | .data1f dest src cks payload => encodeFrame dest src 1 0 1 cks payload
  | .ack1 dest src cks payload => encodeFrame dest src 1 1 0 cks payload
  | .ack1f dest src cks payload => encodeFrame dest src 1 1 1 cks payload
  | .reset who => .op who [0x00]
  | .cfgInit who ok => .op who [0x01, bitByte ok]
  | .crcInit who => .op who [0x10]
  | .crcUpdate who b => .op who [0x11, b]
  | .crcRead who => .op who [0x12]
  | .crcCompute who bytes => .op who (0x13 :: bytes)
  | .codecEncode who s a f payload => .op who (0x20 :: bitByte s :: bitByte a :: bitByte f :: payload)
  | .codecDecode who wire => .op who (0x21 :: wire)
  | .codecIsValid who f => .op who (0x22 :: frameWire f)
  | .codecIsWellFormed who f => .op who (0x23 :: frameWire f)
  | .tmrStart d => .op .sender (0x30 :: be 4 d.toNat)
  | .tmrCancel => .op .sender [0x31]
  | .tmrTick => .op .sender [0x32]
  | .tmrExpire => .op .sender [0x33]
  | .txLoad buf dest => .op .sender (0x40 :: (be 4 dest.toNat ++ buf))
  | .txSendPacket => .op .sender [0x41]
  | .txTimeout => .op .sender [0x42]
  | .txPacketReceived => .op .sender [0x43]
  | .txRecv wire src => .op .sender (0x44 :: (be 4 src.toNat ++ wire))
  | .rxRecv wire src => .op .receiver (0x50 :: (be 4 src.toNat ++ wire))

/-- How many operand bytes an operation has before any byte sequence among its operands (log 3, log 4). -/
def fixedOperandBytes (label : Nat) : Nat :=
  match label with
  | 0x01 => 1
  | 0x11 => 1
  | 0x20 => 3
  | 0x22 => 14
  | 0x23 => 14
  | 0x30 => 4
  | 0x40 => 4
  | 0x44 => 4
  | 0x50 => 4
  | _ => 0

/-- R108, column "instance": where a table word is presented; an operation both instances have is given to the sender (log 4). -/
def tableInstance (label : Nat) : Role := if label = 0x50 then .receiver else .sender

/-- R99, column "semantics": a frame with the ACK flag set is handed to the sender (R194), any other to the receiver (R212) (log 4). -/
def tableDestination (pfx : Nat) : Role := if pfx / 256 % 256 = 1 then .sender else .receiver

/-- The request a table row's word stands for: an eight-bit label with operand bytes of zeros, or a 48-bit prefix (`P` of R91, written
big-endian on the wire) followed by a checksum field of zeros and no payload. -/
def tableRequest (nbits w : Nat) : Option Request :=
  if nbits = 8 then
    some (.op (tableInstance w) (BitVec.ofNat 8 w :: List.replicate (fixedOperandBytes w) 0))
  else if nbits = 48 then
    some (.datagram (tableDestination w) 0 (be 6 w ++ List.replicate 8 0))
  else none

/-- The instruction the decoder reads from a table row's word. -/
def decodeTableWord (nbits w : Nat) : Option Instr :=
  match tableRequest nbits w with
  | none => none
  | some r => (decode r).toOption

end Sys2Proof
end

