-- ==== Sys2Proof/Machine/State.lean ====
section
/-! DEFINITION. The state of the whole system (R20, R43): the sender instance, the receiver instance, and the environment a run needs
(R230): datagrams in flight, the fault injectors, the platform's sockets, the outputs so far and the events still to come. Plain data.
Reset values: R43 and the log entries named beside a field. -/

namespace Sys2Proof.Machine

/-- Why the machine stops. Neither fault is reachable from reset; both are the model's own and SAFE (logs 14, 15). -/
inductive Fault where
  /-- raised by the chunk read (R188) and by the delivery (R214) when a byte they read was never written since reset: R43, R224 say no
  operation reads such a byte, and the spec gives it no value. Safe (log 14). -/
  | unwrittenByte
  /-- raised by the chunk size `tx_len - tx_sent` (R188) and by the roll-back `tx_sent - tx_last` (R190) when the difference would be
  negative: R220 says it never is. Safe (log 15). -/
  | counterUnderflow
  deriving DecidableEq, Repr

/-- What is not enabled, and why (R35, R177, R223, R282, U25, U26). -/
inductive Guard where
  /-- CFG.INIT without both ports, a second time, or on a halted instance (R223, R283, U25) -/
  | cfgInit
  /-- TX.LOAD before CFG.INIT or on a halted instance (R223) -/
  | txLoad
  /-- TX.SENDPACKET on a halted instance, or in a `WaitForCall` state without an active transfer (R189, R223) -/
  | txSendPacket
  /-- TMR.EXPIRE when it is not due (R173) -/
  | tmrExpire
  /-- a configuration write after CFG.INIT (R36, U26) -/
  | configure
  /-- an act of the transport on no datagram, or the delivery of one addressed to no instance (R231, R232) -/
  | transport
  /-- the construction of a fault injector once its side has performed CFG.INIT (R240, R252; log 35) -/
  | construct
  /-- an operation other than RESET on a halted instance (R35, D21, U25) -/
  | halted
  /-- TMR.START, TMR.CANCEL, TX.TIMEOUT or TX.PACKETRECEIVED before CFG.INIT (R282) -/
  | notStarted
  /-- one of these four named by an event: they are "never by themselves" (R177, R223, R269) -/
  | neverByItself
  /-- the arrival of a datagram that is not in flight for that instance (R223) -/
  | noDatagram
  deriving DecidableEq, Repr

/-- Why an operation or event has no transition. All are SAFE. -/
inductive Refusal where
  /-- raised by an arm of `exec` whose instruction has no meaning yet; no arm raises it in this model. Safe. -/
  | notModelled (mnemonic : String)
  /-- raised by an operation or environment event whose guard does not hold (R35, R223): "not enabled; a model has no transition for
  them" (U26). Safe (log 5). -/
  | notEnabled (what : Guard)
  /-- raised by the step when an operation request decodes to nothing: "Every label not in the table names no operation" (R108, U13).
  Safe (log 5). -/
  | noSuchOperation (why : DecodeError)
  deriving DecidableEq, Repr

/-- R60: a byte-addressed space, as the bytes written since reset: (offset, byte) pairs, offsets strictly rising. An offset that is not
listed reads as nothing (log 14). -/
abbrev Memory := List Host.Cell

/-- The canonical form: offsets strictly rising. -/
def Memory.wf : Memory → Bool
  | [] => true
  | c :: m => m.all (fun d => decide (c.1 < d.1)) && Memory.wf m

/-- R32: the four states of the sender. -/
inductive TxState where
  | waitForCall0
  | waitForAck0
  | waitForCall1
  | waitForAck1
  deriving DecidableEq, Repr, Inhabited

/-- R33: the one state of the receiver. -/
inductive RxState where
  | waitForData
  deriving DecidableEq, Repr, Inhabited

/-- What every instance holds (R21, R35, R36, R60, R231). -/
structure Common where
  /-- `crc_acc`, R21 -/
  crcAcc   : Crc
  /-- `halted`, R35 -/
  halted   : Bool
  /-- CFG.INIT has been performed since reset and the configuration is frozen, R36, R283 (log 27) -/
  initDone : Bool
  /-- `PORT_DATA`, R11, R36; `none` until the host has supplied it (log 21) -/
  portData : Option Port
  /-- `PORT_ACK`, R11, R36; `none` until the host has supplied it (log 21) -/
  portAck  : Option Port
  /-- `FRAME_OUT`, R60 (c) -/
  frameOut : Memory
  /-- `FRAME_IN`, R60 (d) -/
  frameIn  : Memory
  /-- the address of this instance, R231 (log 9) -/
  addr     : Addr
  deriving DecidableEq, Repr

/-- A sender instance (R22 to R28, R32). -/
structure Sender where
  common    : Common
  /-- `tx_len`, R22 (log 10) -/
  txLen     : Nat
  /-- `tx_sent`, R23 (log 10) -/
  txSent    : Nat
  /-- `tx_last`, R24 -/
  txLast    : BitVec 11
  /-- `tx_dest`, R25 -/
  txDest    : Addr
  /-- `tmr_count`, R26 -/
  tmrCount  : BitVec 32
  /-- `tmr_armed`, R27 -/
  tmrArmed  : Bool
  /-- `tx_active`, R28 -/
  txActive  : Bool
  /-- `tx_state`, R32 -/
  txState   : TxState
  /-- `TIMEOUT_MS`, R9, R36 -/
  timeoutMs : BitVec 32
  /-- `TXBUF`, R60 (a) -/
  txBuf     : Memory
  deriving DecidableEq, Repr

/-- A receiver instance (R29 to R31, R33). -/
structure Receiver where
  common      : Common
  /-- `rx_state`, R33 -/
  rxState     : RxState
  /-- `rx_len`, R29 (log 10) -/
  rxLen       : Nat
  /-- `rx_peer`, R30 -/
  rxPeer      : Addr
  /-- `rx_peer_valid`, R30 -/
  rxPeerValid : Bool
  /-- `rx_last_valid`, R31 -/
  rxLastValid : Bool
  /-- `rx_last_seq`, R31 -/
  rxLastSeq   : Bool
  /-- `RX_DEDUP`, R12, R36 -/
  rxDedup     : Bool
  /-- `RX_BUF_MAX`, R13, R218; `none` is unbounded (log 11) -/
  rxBufMax    : Option Nat
  /-- `RXBUF`, R60 (b) -/
  rxBuf       : Memory
  deriving DecidableEq, Repr

/-- R69, R231: the destination of a datagram. The port is the sending instance's configuration field as it stands (log 21). -/
structure Endpoint where
  addr : Addr
  port : Option Port
  deriving DecidableEq, Repr

/-- R231: a datagram in flight. -/
structure Datagram where
  dst  : Endpoint
  src  : Addr
  wire : List Byte
  deriving DecidableEq, Repr

/-- R233: a fault injector's configuration, three percentages. -/
structure Injector where
  bitError  : Nat
  loss      : Nat
  duplicate : Nat
  deriving DecidableEq, Repr

/-- R282: the two sockets the platform has for each side. -/
inductive Socket where
  | outbound
  | inbound
  deriving DecidableEq, Repr

/-- R230: what the environment holds for one side. -/
structure Side where
  injector   : Injector
  /-- the outbound socket works (R282); when it does not, a `send` fails (R254 (b); log 20) -/
  outboundUp : Bool
  /-- the inbound socket works (R282); when it does not, the transport's receive fails (R254 (c); log 20) -/
  inboundUp  : Bool
  deriving DecidableEq, Repr

/-- R250: the errors E1 to E6, each with the information it records. -/
inductive Error where
  | payloadTooLarge (len : Nat)
  | invalidConfiguration (value : Int)
  | checksumMismatch
  | transportError
  | malformed (why : Malformed)
  | bufferOverflow
  deriving DecidableEq, Repr

/-- The result an operation returns to what started it (R108, column "result"). -/
inductive Result where
  | crc (c : Crc)
  | wire (w : List Byte)
  | frame (f : Frame)
  | flag (v : Bool)
  | accepted
  | refused
  deriving DecidableEq, Repr

/-- R222: what an operation hands over outside the block. -/
inductive Output where
  /-- R15: `send(dst, W)` -/
  | sent (who : Role) (dst : Endpoint) (wire : List Byte)
  /-- R15, R242: `deliver(B)` -/
  | delivered (bytes : List Byte)
  /-- R192: the `done` event -/
  | done
  | result (who : Role) (r : Result)
  /-- R15: `raise <Error>(info)` -/
  | error (who : Role) (e : Error)
  deriving DecidableEq, Repr

/-- R36, R223: a write of the host to the configuration record. -/
inductive ConfigWrite where
  | timeoutMs (v : BitVec 32)
  | rxDedup (v : Bool)
  | portData (who : Role) (p : Port)
  | portAck (who : Role) (p : Port)
  deriving DecidableEq, Repr

/-- R231, R293: what the transport, or a third party, does to the datagrams in flight; `k` is a datagram's place in the list. -/
inductive TransportAction where
  | lose (k : Nat)
  | duplicate (k : Nat)
  | alter (k : Nat) (wire : List Byte)
  | inject (d : Datagram)
  deriving DecidableEq, Repr

/-- The events of a run, each started by one agent (R71, R223, R230; log 2). -/
inductive Event where
  /-- an agent starts an operation, or a datagram in flight arrives at an instance (R108, R194, R212, R223) -/
  | request (r : Request)
  /-- the transport delivers the `k`-th datagram in flight (R232) -/
  | deliver (k : Nat)
  /-- the host writes a configuration field (R282) -/
  | configure (w : ConfigWrite)
  /-- the transport, or a third party, acts (R231, R293) -/
  | transport (a : TransportAction)
  /-- the fault injector of a side is constructed with three percentages (R233) -/
  | construct (who : Role) (bitError loss duplicate : Int)
  /-- the platform's socket I/O of a side starts or stops working, on one of its two sockets (R254, R282) -/
  | link (who : Role) (socket : Socket) (up : Bool)
  deriving DecidableEq, Repr

/-- The state of the system. -/
structure State where
  sender       : Sender
  receiver     : Receiver
  senderSide   : Side
  receiverSide : Side
  /-- R40, R231: the datagrams in flight -/
  inFlight     : List Datagram
  /-- the outputs so far, oldest first (log 18) -/
  outputs      : List Output
  /-- the events still to come, next first (log 2) -/
  agenda       : List Event
  /-- how many free values have been drawn (logs 8, 19) -/
  free         : Nat
  /-- an operation that a unit of the block performs next as a step of another; no event puts one here (log 6) -/
  unitCall     : Option Request
  deriving DecidableEq, Repr

/-- R43: what every instance holds after reset; the address is the platform's and stays. -/
def Common.reset (addr : Addr) : Common :=
  { crcAcc := 0xFFFFFFFF, halted := false, initDone := false, portData := none, portAck := none,
    frameOut := [], frameIn := [], addr := addr }

/-- R43, R280: a sender instance after reset. `dest` stands for the unspecified `tx_dest` (log 8). -/
def Sender.reset (addr dest : Addr) : Sender :=
  { common := Common.reset addr, txLen := 0, txSent := 0, txLast := 0, txDest := dest, tmrCount := 0, tmrArmed := false,
    txActive := false, txState := .waitForCall0, timeoutMs := Config.defaultTimeoutMs, txBuf := [] }

/-- R43, R280: a receiver instance after reset. `peer` stands for the unspecified `rx_peer` (log 8); the realisation's capacity stays. -/
def Receiver.reset (addr peer : Addr) (bufMax : Option Nat) : Receiver :=
  { common := Common.reset addr, rxState := .waitForData, rxLen := 0, rxPeer := peer, rxPeerValid := false, rxLastValid := false,
    rxLastSeq := false, rxDedup := Config.defaultRxDedup, rxBufMax := bufMax, rxBuf := [] }

/-- The environment's side at power-on: an injector that passes everything, sockets that work (logs 19, 20). -/
def Side.reset : Side := { injector := ⟨0, 0, 0⟩, outboundUp := true, inboundUp := true }

/-- The machine right after power-on: R43 for both instances, an empty transport, no event to come. The two addresses of each instance
are the values log 8 and log 9 name. -/
def State.reset : State :=
  { sender := Sender.reset 0 0, receiver := Receiver.reset 0 0 none, senderSide := Side.reset, receiverSide := Side.reset,
    inFlight := [], outputs := [], agenda := [], free := 0, unitCall := none }

end Sys2Proof.Machine
end

