-- ==== Sys2Proof/Machine/Ops.lean ====
section
/-! DEFINITION. The named operations over the spaces and registers (R15), the transport's `send` with its fault injector (R233 to R240),
and the shared entries: an error (R264: the block's "exception", which saves nothing and jumps nowhere), a discard (R15), and
`EmitChunk` (R188), which with the roll-back of `rollBack` is the entry of the `Timeout` event (R263). There is no return operation
(R265): after every one of them control is in the state the operation left. -/

namespace Sys2Proof.Machine

/-- The outcomes of this machine. -/
abbrev Outcome := Host.Outcome State Fault Refusal

/-- Go on from the next state, if there is one (R15: an operation that stops writes nothing). -/
def andThen (o : Outcome) (k : State → Outcome) : Outcome :=
  match o with
  | .next s => k s
  | .fault r => .fault r
  | .refused r => .refused r

/-- The next state of an outcome, if it has one. -/
def nextState? (o : Outcome) : Option State :=
  match o with
  | .next s => some s
  | _ => none

/-! ### The byte spaces -/

/-- The byte at an offset, if it was written (log 14). -/
def Memory.read : Memory → Nat → Option Byte
  | [], _ => none
  | c :: m, k => if c.1 = k then some c.2 else Memory.read m k

/-- Write one byte, keeping the offsets rising. -/
def Memory.write : Memory → Nat → Byte → Memory
  | [], k, v => [(k, v)]
  | c :: m, k, v => if k < c.1 then (k, v) :: c :: m else if k = c.1 then (k, v) :: m else c :: Memory.write m k v

/-- R15: `MemWrite(space, addr, len(v), v)`. -/
def Memory.writeBytes (m : Memory) (k : Nat) : List Byte → Memory
  | [] => m
  | b :: bs => Memory.writeBytes (m.write k b) (k + 1) bs

/-- R15: `MemRead(space, addr, n)`; nothing when one of the bytes was never written. -/
def Memory.readBytes (m : Memory) (k : Nat) : Nat → Option (List Byte)
  | 0 => some []
  | n + 1 =>
    match m.read k, Memory.readBytes m (k + 1) n with
    | some b, some bs => some (b :: bs)
    | _, _ => none

/-! ### Registers -/

/-- R32: the code of a sender state. -/
def txCode : TxState → BitVec 2
  | .waitForCall0 => 0
  | .waitForAck0 => 1
  | .waitForCall1 => 2
  | .waitForAck1 => 3

/-- R32: `tx_state[1]`, the sequence bit of the chunk in hand. -/
def txSeq (q : TxState) : Bool := (txCode q).getLsbD 1

/-- R32: `tx_state[0]`, whether the chunk in hand awaits its acknowledgement. -/
def txWaiting (q : TxState) : Bool := (txCode q).getLsbD 0

/-- R189: the `WaitForAck` state of a sequence bit. -/
def waitForAckOf (s : Bool) : TxState := if s then .waitForAck1 else .waitForAck0

/-- R191: the `WaitForCall` state after the acknowledgement of sequence bit `s`. -/
def waitForCallAfter (s : Bool) : TxState := if s then .waitForCall0 else .waitForCall1

/-- What an instance shares with the other kind. -/
def commonOf (who : Role) (s : State) : Common :=
  match who with
  | .sender => s.sender.common
  | .receiver => s.receiver.common

/-- Change the sender's registers. -/
def mapSender (f : Sender → Sender) (s : State) : State := { s with sender := f s.sender }

/-- Change the receiver's registers. -/
def mapReceiver (f : Receiver → Receiver) (s : State) : State := { s with receiver := f s.receiver }

/-- Change what an instance shares with the other kind. -/
def mapCommon (who : Role) (f : Common → Common) (s : State) : State :=
  match who with
  | .sender => mapSender (fun n => { n with common := f n.common }) s
  | .receiver => mapReceiver (fun n => { n with common := f n.common }) s

/-- The environment of an instance. -/
def sideOf (who : Role) (s : State) : Side :=
  match who with
  | .sender => s.senderSide
  | .receiver => s.receiverSide

/-- Change the environment of an instance. -/
def mapSide (who : Role) (f : Side → Side) (s : State) : State :=
  match who with
  | .sender => { s with senderSide := f s.senderSide }
  | .receiver => { s with receiverSide := f s.receiverSide }

/-- R21: write `crc_acc`. -/
def setCrc (who : Role) (acc : Crc) (s : State) : State := mapCommon who (fun c => { c with crcAcc := acc }) s

/-- R60 (d): `FRAME_IN` holds the bytes of one datagram, from offset 0, and nothing else (log 17). -/
def setFrameIn (who : Role) (wire : List Byte) (s : State) : State :=
  mapCommon who (fun c => { c with frameIn := Memory.writeBytes [] 0 wire }) s

/-- R150: `ENCODE` writes its bytes to `FRAME_OUT`. -/
def setFrameOut (who : Role) (wire : List Byte) (s : State) : State :=
  mapCommon who (fun c => { c with frameOut := c.frameOut.writeBytes 0 wire }) s

/-- R222: hand an output over. -/
def emit (o : Output) (s : State) : State := { s with outputs := s.outputs ++ [o] }

/-! ### Guards -/

/-- R35, D21, U25: on a halted instance no operation but RESET is enabled. -/
def unlessHalted (who : Role) (s : State) (o : Outcome) : Outcome :=
  if (commonOf who s).halted then .refused (.notEnabled .halted) else o

/-- R282, R35: the sender's units work only once CFG.INIT has been performed, and not on a halted instance. -/
def whenStarted (s : State) (o : Outcome) : Outcome :=
  unlessHalted .sender s (if s.sender.common.initDone then o else .refused (.notEnabled .notStarted))

/-! ### Entries -/

/-- R15, R264: an error ends the operation; nothing of the block is written, nothing is sent, control stays where it was, and the error
goes to the caller. -/
def raiseError (who : Role) (e : Error) (s : State) : Outcome := .next (emit (.error who e) s)

/-- R15: `discard` ends the operation with no state written and no output (log 16). -/
def discard (s : State) : Outcome := .next s

/-- R250: the code the spec gives an error. -/
def errorCode : Error → Nat
  | .payloadTooLarge _ => 1
  | .invalidConfiguration _ => 2
  | .checksumMismatch => 3
  | .transportError => 4
  | .malformed _ => 5
  | .bufferOverflow => 6

/-! ### The checksum unit and the codec as the machines use them -/

/-- R150: what a successful `ENCODE(s, a, f, B)` writes: the scratch accumulator and `FRAME_OUT`. -/
def writeFrame (k : Config.Parameters) (who : Role) (s a f : Bool) (payload : List Byte) (st : State) : State :=
  setFrameOut who (encodeWith k s a f payload) (setCrc who (crcAfter k (coveredBytes (buildWith k s a f payload))) st)

/-! ### The transport (R231, R233 to R240) -/

/-- R237: the bit-error action sets one byte of the wire frame to zero. -/
def zeroByte (wire : List Byte) (index : Nat) : List Byte := wire.set (index % wire.length) 0

/-- R238, R237, R239: the wire bytes that enter the transport under each fault kind. -/
inductive FaultKind where
  | bitError | loss | duplicate
  deriving DecidableEq, Repr

/-- R234, R235: the candidate list. A kind with percentage 0 is never triggered, one with 100 always (log 19). -/
def faultCandidates (inj : Injector) (d : Config.Draw) : List FaultKind :=
  (if d.bitError % 100 < inj.bitError then [FaultKind.bitError] else [])
    ++ (if d.loss % 100 < inj.loss then [FaultKind.loss] else [])
    ++ (if d.duplicate % 100 < inj.duplicate then [FaultKind.duplicate] else [])

/-- R236 to R239: perform one fault's action. -/
def faultAction (k : FaultKind) (d : Config.Draw) (wire : List Byte) : List (List Byte) :=
  match k with
  | .bitError => [zeroByte wire d.index]
  | .loss => []
  | .duplicate => [wire, wire]

/-- R235, R236: with no candidate, one unmodified datagram; else exactly one candidate's action. -/
def injectedCopies (inj : Injector) (d : Config.Draw) (wire : List Byte) : List (List Byte) :=
  match (faultCandidates inj d)[d.choice % (faultCandidates inj d).length]? with
  | none => [wire]
  | some k => faultAction k d wire

/-- R15, R231: `send(dst, W)`. The injector adds zero, one or two datagrams to the transport; when the outbound socket fails the
error is absorbed (R197, R217, R254 (b)) and nothing enters the transport. -/
def send (who : Role) (dst : Endpoint) (wire : List Byte) (s : State) : State :=
  let copies := if (sideOf who s).outboundUp then injectedCopies (sideOf who s).injector (Config.draw s.free) wire else []
  { s with
    outputs := s.outputs ++ [.sent who dst wire]
    inFlight := s.inFlight ++ copies.map fun w => ⟨dst, (commonOf who s).addr, w⟩
    free := s.free + 1 }

/-- R69, R232: the endpoint at which an instance receives. -/
def ownEndpoint (who : Role) (s : State) : Endpoint :=
  match who with
  | .sender => ⟨s.sender.common.addr, s.sender.common.portAck⟩
  | .receiver => ⟨s.receiver.common.addr, s.receiver.common.portData⟩

/-- R196, R232: a datagram whose destination is not ready stays in flight. -/
def keepInFlight (who : Role) (src : Addr) (wire : List Byte) (s : State) : State :=
  { s with inFlight := s.inFlight ++ [⟨ownEndpoint who s, src, wire⟩] }

/-! ### The timer (R170, R171) -/

/-- R170: cancel-then-start in one step. -/
def startTimer (d : BitVec 32) (s : State) : State := mapSender (fun n => { n with tmrCount := d, tmrArmed := true }) s

/-- R171: `tmr_count` keeps its value. -/
def cancelTimer (s : State) : State := mapSender (fun n => { n with tmrArmed := false }) s

/-! ### The sender's shared action -/

/-- R188: the size of the next chunk. -/
def chunkSize (n : Sender) : Nat := min Config.packetSize (n.txLen - n.txSent)

/-- R188: whether the next chunk is the last slice of the buffer. -/
def chunkFinal (n : Sender) : Bool := decide (n.txSent + chunkSize n = n.txLen)

/-- R69, R188: where data frames go. -/
def dataEndpoint (n : Sender) : Endpoint := ⟨n.txDest, n.common.portData⟩

/-- R188: the counters after a chunk of `k` bytes. -/
def countChunk (k : Nat) (s : State) : State :=
  mapSender (fun n => { n with txSent := n.txSent + k, txLast := BitVec.ofNat 11 k }) s

/-- R188: `EmitChunk(q)` with the bytes `b` of the chunk in hand. -/
def emitBytes (k : Config.Parameters) (q : Bool) (b : List Byte) (s : State) : State :=
  startTimer s.sender.timeoutMs
    (countChunk (chunkSize s.sender)
      (send .sender (dataEndpoint s.sender) (encodeWith k q false (chunkFinal s.sender) b)
        (writeFrame k .sender q false (chunkFinal s.sender) b s)))

/-- R188: `EmitChunk(q)`. -/
def emitChunk (k : Config.Parameters) (q : Bool) (s : State) : Outcome :=
  if s.sender.txLen < s.sender.txSent then .fault .counterUnderflow
  else
    match s.sender.txBuf.readBytes s.sender.txSent (chunkSize s.sender) with
    | none => .fault .unwrittenByte
    | some b => .next (emitBytes k q b s)

/-- R190: roll the bytes-sent counter back by the last chunk size. -/
def rollBack (s : State) : State := mapSender (fun n => { n with txSent := n.txSent - n.txLast.toNat }) s

/-- Write `tx_state`, the last action of an operation (R32). -/
def setTxState (q : TxState) (s : State) : State := mapSender (fun n => { n with txState := q }) s

/-- R190, R263: the entry of the `Timeout` event, the block's one asynchronous entry: roll back, send the chunk in hand again, restart
the timer, stay in the same state. In a `WaitForCall` state it has no effect (R193). -/
def takeTimeout (k : Config.Parameters) (s : State) : Outcome :=
  if txWaiting s.sender.txState then
    if s.sender.txSent < s.sender.txLast.toNat then .fault .counterUnderflow
    else emitChunk k (txSeq s.sender.txState) (rollBack s)
  else .next s

/-- R191, R192: the transfer is over when the chunk just acknowledged was the final one. -/
def finishTransfer (s : State) : State :=
  if s.sender.txSent = s.sender.txLen then emit .done (mapSender (fun n => { n with txActive := false }) s) else s

/-- R191: the `PacketReceived` transition. In a `WaitForCall` state it has no effect (R193). -/
def takeAck (s : State) : State :=
  if txWaiting s.sender.txState then
    finishTransfer (setTxState (waitForCallAfter (txSeq s.sender.txState)) (cancelTimer s))
  else s

end Sys2Proof.Machine
end

