-- ==== Sys2Proof/Machine/Codec.lean ====
section
/-! DEFINITION. The frame codec: ENCODE, DECODE, ISVALID, ISWELLFORMED (R150 to R155). As operations of their own they may be performed
at any time (R223), but on a halted instance (R35). -/

namespace Sys2Proof.Machine

/-- R150, R151: a payload above 1400 bytes is the error `PayloadTooLarge`, with nothing written. -/
def encodeOpWith (k : Config.Parameters) (who : Role) (s a f : Bool) (payload : List Byte) (st : State) : Outcome :=
  unlessHalted who st
    (if Config.packetSize < payload.length then raiseError who (.payloadTooLarge payload.length) st
     else .next (emit (.result who (.wire (encodeWith k s a f payload))) (writeFrame k who s a f payload st)))

/-- R150, with the checksum of this hardware. -/
def execCodecEncode (who : Role) (s a f : Bool) (payload : List Byte) (st : State) : Outcome :=
  encodeOpWith hardware who s a f payload st

/-- R152: no state is written; `Malformed` for the two length conditions only. -/
def execCodecDecode (who : Role) (wire : List Byte) (s : State) : Outcome :=
  unlessHalted who s
    (match parseFrame wire with
     | .error why => raiseError who (.malformed why) s
     | .ok f => .next (emit (.result who (.frame f)) s))

/-- R154: only the scratch `crc_acc` is written. -/
def isValidWith (k : Config.Parameters) (who : Role) (f : Frame) (s : State) : Outcome :=
  unlessHalted who s (.next (emit (.result who (.flag (validWith k f))) (setCrc who (crcAfter k (coveredBytes f)) s)))

/-- R154, with the checksum of this hardware. -/
def execCodecIsValid (who : Role) (f : Frame) (s : State) : Outcome := isValidWith hardware who f s

/-- R155: no state is written. -/
def execCodecIsWellFormed (who : Role) (f : Frame) (s : State) : Outcome :=
  unlessHalted who s (.next (emit (.result who (.flag (frameWellFormed f))) s))

end Sys2Proof.Machine
end

