-- ==== Sys2Proof/Machine/Crc.lean ====
section
/-! DEFINITION. The checksum generator: CRC.INIT, CRC.UPDATE, CRC.READ, CRC.COMPUTE (R131 to R134). As operations of their own they may
be performed at any time (R223), but on a halted instance (R35). -/

namespace Sys2Proof.Machine

/-- R131. -/
def execCrcInit (who : Role) (s : State) : Outcome := unlessHalted who s (.next (setCrc who Config.crc.init s))

/-- R132. -/
def execCrcUpdate (who : Role) (b : Byte) (s : State) : Outcome :=
  unlessHalted who s (.next (setCrc who (crcStep Config.crc (commonOf who s).crcAcc b) s))

/-- R133: `crc_acc` is not written. -/
def execCrcRead (who : Role) (s : State) : Outcome :=
  unlessHalted who s (.next (emit (.result who (.crc (crcFinish Config.crc (commonOf who s).crcAcc))) s))

/-- R134. -/
def computeWith (k : Config.Parameters) (who : Role) (bytes : List Byte) (s : State) : Outcome :=
  unlessHalted who s (.next (emit (.result who (.crc (k.crc32 bytes))) (setCrc who (crcAfter k bytes) s)))

/-- R134, with the checksum of this hardware. -/
def execCrcCompute (who : Role) (bytes : List Byte) (s : State) : Outcome := computeWith hardware who bytes s

end Sys2Proof.Machine
end

