-- ==== Sys2Proof/Machine/ReceiverOps.lean ====
section
/-! DEFINITION. The receiver state machine: RX.RECV (R210 to R219), with `RX_DEDUP` 0 and 1. -/

namespace Sys2Proof.Machine

/-- R210, R223: when the receiver takes datagrams. -/
def receiverReady (s : State) : Bool := s.receiver.common.initDone && !s.receiver.common.halted

/-- R216: the accepted frame repeats the last accepted sequence bit. Never so with `RX_DEDUP = 0` (R212). -/
def isDuplicate (n : Receiver) (f : Frame) : Bool :=
  n.rxDedup && n.rxLastValid && (n.rxLastSeq == sequenceBit f)

/-- R218: the payload does not fit a finite `RX_BUF_MAX`. -/
def overflows (n : Receiver) (f : Frame) : Bool :=
  match n.rxBufMax with
  | none => false
  | some m => decide (m < n.rxLen + f.payload.length)

/-- R212: record the sender's address. -/
def recordPeer (src : Addr) (n : Receiver) : Receiver := { n with rxPeer := src, rxPeerValid := true }

/-- R212: append the payload in arrival order. R216: with `RX_DEDUP = 1` note the sequence bit. -/
def appendPayload (f : Frame) (n : Receiver) : Receiver :=
  { n with
    rxBuf := n.rxBuf.writeBytes n.rxLen f.payload
    rxLen := n.rxLen + f.payload.length
    rxLastValid := n.rxDedup || n.rxLastValid
    rxLastSeq := if n.rxDedup then sequenceBit f else n.rxLastSeq }

/-- R69, R213: where ACK frames go: the recorded address with the well-known ACK port. -/
def ackEndpoint (n : Receiver) : Endpoint := ⟨n.rxPeer, n.common.portAck⟩

/-- R213: build and send the ACK frame of sequence bit `q`: END flag 0, payload empty. -/
def sendAck (k : Config.Parameters) (q : Bool) (s : State) : State :=
  send .receiver (ackEndpoint s.receiver) (encodeWith k q true false []) (writeFrame k .receiver q true false [] s)

/-- R214, R216: what the end of a cycle writes. -/
def clearCycle (n : Receiver) : Receiver :=
  { n with rxLen := 0, rxLastValid := !n.rxDedup && n.rxLastValid, rxState := .waitForData }

/-- R214: hand the whole buffer over and begin a fresh cycle. -/
def deliverBuffer (s : State) : Outcome :=
  match s.receiver.rxBuf.readBytes 0 s.receiver.rxLen with
  | none => .fault .unwrittenByte
  | some bytes => .next (mapReceiver clearCycle (emit (.delivered bytes) s))

/-- R212, R216: the registers after an accepted frame has been taken in, before its acknowledgement. -/
def takeIn (wire : List Byte) (src : Addr) (f : Frame) (s : State) : State :=
  mapReceiver (fun n => if isDuplicate n f then recordPeer src n else appendPayload f (recordPeer src n))
    (setFrameIn .receiver wire s)

/-- R212, R216, R218: an accepted frame. The capacity is tested where a payload would be appended (log 11). -/
def acceptAtReceiver (k : Config.Parameters) (wire : List Byte) (src : Addr) (f : Frame) (s : State) : Outcome :=
  if !isDuplicate s.receiver f && overflows s.receiver f then raiseError .receiver .bufferOverflow s
  else if !isDuplicate s.receiver f && isFinal f then deliverBuffer (sendAck k (sequenceBit f) (takeIn wire src f s))
  else .next (sendAck k (sequenceBit f) (takeIn wire src f s))

/-- R211, R212: one datagram arrives at the receiver. -/
def receiveAtReceiver (k : Config.Parameters) (wire : List Byte) (src : Addr) (s : State) : Outcome :=
  if receiverReady s then
    match acceptWith k wire with
    | none => discard s
    | some f => acceptAtReceiver k wire src f s
  else .next (keepInFlight .receiver src wire s)

/-- R212, R216. -/
def execRxRecv (wire : List Byte) (src : Addr) (s : State) : Outcome := receiveAtReceiver hardware wire src s

end Sys2Proof.Machine
end

