-- ==== Sys2Proof/Machine/SenderOps.lean ====
section
/-! DEFINITION. The sender state machine: TX.LOAD, TX.SENDPACKET, TX.TIMEOUT, TX.PACKETRECEIVED, TX.RECV (R185 to R199). -/

namespace Sys2Proof.Machine

/-- R186: what an accepted load writes. -/
def loadTransfer (buf : List Byte) (dest : Addr) (n : Sender) : Sender :=
  { n with
    txBuf := n.txBuf.writeBytes 0 buf
    txLen := buf.length
    txSent := 0
    txLast := 0
    txDest := dest
    txState := .waitForCall0
    txActive := true }

/-- R186, R187, R223: enabled after CFG.INIT while not halted; refused, with nothing written, while a transfer is active. -/
def execTxLoad (buf : List Byte) (dest : Addr) (s : State) : Outcome :=
  if s.sender.common.halted || !s.sender.common.initDone then .refused (.notEnabled .txLoad)
  else if s.sender.txActive then .next (emit (.result .sender .refused) s)
  else .next (emit (.result .sender .accepted) (mapSender (loadTransfer buf dest) s))

/-- R189, R223: when TX.SENDPACKET is enabled. -/
def sendEnabled (s : State) : Bool :=
  !s.sender.common.halted && s.sender.txActive && !txWaiting s.sender.txState

/-- R189. In a `WaitForAck` state of an instance that is not halted it has no effect (R193, R35; log 23). -/
def sendPacketWith (k : Config.Parameters) (s : State) : Outcome :=
  if txWaiting s.sender.txState && !s.sender.common.halted then .next s
  else if sendEnabled s then
    andThen (emitChunk k (txSeq s.sender.txState) s) fun t =>
      .next (setTxState (waitForAckOf (txSeq s.sender.txState)) t)
  else .refused (.notEnabled .txSendPacket)

/-- R189, with the checksum of this hardware. -/
def execTxSendPacket (s : State) : Outcome := sendPacketWith hardware s

/-- R190; only inside TMR.EXPIRE (R223). -/
def timeoutWith (k : Config.Parameters) (s : State) : Outcome := whenStarted s (takeTimeout k s)

/-- R190, with the checksum of this hardware. -/
def execTxTimeout (s : State) : Outcome := timeoutWith hardware s

/-- R191, R192; only inside an accepting TX.RECV (R223). -/
def execTxPacketReceived (s : State) : Outcome := whenStarted s (.next (takeAck s))

/-- R196, R223: when the sender takes datagrams. -/
def senderReady (s : State) : Bool :=
  s.sender.common.initDone && !s.sender.common.halted && txWaiting s.sender.txState

/-- R194: the tests on an acceptable frame: an acknowledgement with the sequence bit of the chunk in hand. The END flag, the payload and
the source address are not read (R195). -/
def ackMatches (f : Frame) (q : TxState) : Bool := isAck f && (f.seq == zextBit 32 (txSeq q))

/-- R154, R194: the scratch an accepted datagram leaves at the sender: it stands in `FRAME_IN`, and ISVALID computed its checksum. -/
def noteAck (k : Config.Parameters) (wire : List Byte) (f : Frame) (s : State) : State :=
  setCrc .sender (crcAfter k (coveredBytes f)) (setFrameIn .sender wire s)

/-- R194, R196: one datagram arrives at the sender. -/
def receiveAtSender (k : Config.Parameters) (wire : List Byte) (src : Addr) (s : State) : Outcome :=
  if senderReady s then
    match acceptWith k wire with
    | none => discard s
    | some f => if ackMatches f s.sender.txState then .next (takeAck (noteAck k wire f s)) else discard s
  else .next (keepInFlight .sender src wire s)

/-- R194. -/
def execTxRecv (wire : List Byte) (src : Addr) (s : State) : Outcome := receiveAtSender hardware wire src s

end Sys2Proof.Machine
end

