-- ==== Sys2Proof/Machine/Frames.lean ====
section
/-! DEFINITION. The eight frame kinds (R99): the arrival of a frame of that kind. Which machine examines it depends on the instance
the transport hands it to (R232): the sender by R194, the receiver by R212, which treats all kinds alike (R100, R215). -/

namespace Sys2Proof.Machine

/-- R232: a datagram is delivered to the one receiving operation of its destination. -/
def receiveAt (k : Config.Parameters) (dest : Role) (wire : List Byte) (src : Addr) (s : State) : Outcome :=
  match dest with
  | .sender => receiveAtSender k wire src s
  | .receiver => receiveAtReceiver k wire src s

/-- R99: the kind with sequence 0, ACK 0, END 0. -/
def execData0 (dest : Role) (src : Addr) (cks : BitVec 64) (payload : List Byte) (s : State) : Outcome :=
  receiveAt hardware dest (frameWire ⟨0, 0, 0, cks, payload⟩) src s

/-- R99: the kind with sequence 0, ACK 0, END 1. -/
def execData0f (dest : Role) (src : Addr) (cks : BitVec 64) (payload : List Byte) (s : State) : Outcome :=
  receiveAt hardware dest (frameWire ⟨0, 0, 1, cks, payload⟩) src s

/-- R99: the kind with sequence 0, ACK 1, END 0. -/
def execAck0 (dest : Role) (src : Addr) (cks : BitVec 64) (payload : List Byte) (s : State) : Outcome :=
  receiveAt hardware dest (frameWire ⟨0, 1, 0, cks, payload⟩) src s

/-- R99: the kind with sequence 0, ACK 1, END 1. -/
def execAck0f (dest : Role) (src : Addr) (cks : BitVec 64) (payload : List Byte) (s : State) : Outcome :=
  receiveAt hardware dest (frameWire ⟨0, 1, 1, cks, payload⟩) src s

/-- R99: the kind with sequence 1, ACK 0, END 0. -/
def execData1 (dest : Role) (src : Addr) (cks : BitVec 64) (payload : List Byte) (s : State) : Outcome :=
  receiveAt hardware dest (frameWire ⟨1, 0, 0, cks, payload⟩) src s

/-- R99: the kind with sequence 1, ACK 0, END 1. -/
def execData1f (dest : Role) (src : Addr) (cks : BitVec 64) (payload : List Byte) (s : State) : Outcome :=
  receiveAt hardware dest (frameWire ⟨1, 0, 1, cks, payload⟩) src s

/-- R99: the kind with sequence 1, ACK 1, END 0. -/
def execAck1 (dest : Role) (src : Addr) (cks : BitVec 64) (payload : List Byte) (s : State) : Outcome :=
  receiveAt hardware dest (frameWire ⟨1, 1, 0, cks, payload⟩) src s

/-- R99: the kind with sequence 1, ACK 1, END 1. -/
def execAck1f (dest : Role) (src : Addr) (cks : BitVec 64) (payload : List Byte) (s : State) : Outcome :=
  receiveAt hardware dest (frameWire ⟨1, 1, 1, cks, payload⟩) src s

end Sys2Proof.Machine
end

