-- ==== Sys2Proof/Machine/System.lean ====
section
/-! DEFINITION. The system operations: RESET and CFG.INIT (R225, R280 to R283). -/

namespace Sys2Proof.Machine

/-- R280, R281: reset reaches one instance's registers, configuration and buffers; the transport, the other instance and the platform
keep theirs. The address register the spec leaves unspecified takes a free value (log 8). -/
def execReset (who : Role) (s : State) : Outcome :=
  match who with
  | .sender =>
    .next { s with sender := Sender.reset s.sender.common.addr (Config.freeAddr s.free), free := s.free + 1 }
  | .receiver =>
    .next { s with
      receiver := Receiver.reset s.receiver.common.addr (Config.freeAddr s.free) s.receiver.rxBufMax
      free := s.free + 1 }

/-- R223, R283: both ports supplied, and CFG.INIT not yet performed since reset; R35: not on a halted instance. -/
def initEnabled (c : Common) : Bool := c.portData.isSome && c.portAck.isSome && !c.initDone && !c.halted

/-- R283: freeze the configuration; a bind failure halts the instance. -/
def initCommon (bindOk : Bool) (c : Common) : Common := { c with initDone := true, halted := c.halted || !bindOk }

/-- R283, R254 (a): a bind failure is also reported to the host as `TransportError`. -/
def execCfgInit (who : Role) (bindOk : Bool) (s : State) : Outcome :=
  if initEnabled (commonOf who s) then
    if bindOk then .next (mapCommon who (initCommon true) s)
    else .next (emit (.error who .transportError) (mapCommon who (initCommon false) s))
  else .refused (.notEnabled .cfgInit)

end Sys2Proof.Machine
end

