-- ==== Sys2Proof/Machine/Timer.lean ====
section
/-! DEFINITION. The retransmission timer: TMR.START, TMR.CANCEL, TMR.TICK, TMR.EXPIRE (R170 to R177). No agent starts the first two: the
step refuses an event that names them (R177, R223, R269). -/

namespace Sys2Proof.Machine

/-- R170. -/
def execTmrStart (delay : BitVec 32) (s : State) : Outcome := whenStarted s (.next (startTimer delay s))

/-- R171. -/
def execTmrCancel (s : State) : Outcome := whenStarted s (.next (cancelTimer s))

/-- R172: one millisecond less while armed, not below zero. -/
def tickTimer (n : Sender) : Sender :=
  if n.tmrArmed && decide (n.tmrCount ≠ 0) then { n with tmrCount := n.tmrCount - 1 } else n

/-- R172; R35, D21, U25: not on a halted instance (log 22). -/
def execTmrTick (s : State) : Outcome := unlessHalted .sender s (.next (mapSender tickTimer s))

/-- R173: when the expiry is enabled; R35: never on a halted instance, whose timer R223 says is not armed. -/
def expiryEnabled (s : State) : Bool :=
  !s.sender.common.halted && s.sender.tmrArmed && decide (s.sender.tmrCount = 0)

/-- R174: the expiry and the `Timeout` transition are one atomic step. -/
def expireWith (k : Config.Parameters) (s : State) : Outcome :=
  unlessHalted .sender s
    (if expiryEnabled s then takeTimeout k (cancelTimer s) else .refused (.notEnabled .tmrExpire))

/-- R174, with the checksum of this hardware. -/
def execTmrExpire (s : State) : Outcome := expireWith hardware s

end Sys2Proof.Machine
end

