-- ==== Sys2Proof/Machine/Dispatch.lean ====
section
/-! DEFINITION. The dispatch: one arm per row of the opcode table. -/

namespace Sys2Proof.Machine

def exec (i : Instr) (s : State) : Host.Outcome State Fault Refusal :=
  match i with
  | .data0 dest src cks payload => Sys2Proof.Machine.execData0 dest src cks payload s
  | .data0f dest src cks payload => Sys2Proof.Machine.execData0f dest src cks payload s
  | .ack0 dest src cks payload => Sys2Proof.Machine.execAck0 dest src cks payload s
  | .ack0f dest src cks payload => Sys2Proof.Machine.execAck0f dest src cks payload s
  | .data1 dest src cks payload => Sys2Proof.Machine.execData1 dest src cks payload s
  | .data1f dest src cks payload => Sys2Proof.Machine.execData1f dest src cks payload s
  | .ack1 dest src cks payload => Sys2Proof.Machine.execAck1 dest src cks payload s
  | .ack1f dest src cks payload => Sys2Proof.Machine.execAck1f dest src cks payload s
  | .reset who => Sys2Proof.Machine.execReset who s
  | .cfgInit who bindOk => Sys2Proof.Machine.execCfgInit who bindOk s
  | .crcInit who => Sys2Proof.Machine.execCrcInit who s
  | .crcUpdate who b => Sys2Proof.Machine.execCrcUpdate who b s
  | .crcRead who => Sys2Proof.Machine.execCrcRead who s
  | .crcCompute who bytes => Sys2Proof.Machine.execCrcCompute who bytes s
  | .codecEncode who sb ab fb payload => Sys2Proof.Machine.execCodecEncode who sb ab fb payload s
  | .codecDecode who wire => Sys2Proof.Machine.execCodecDecode who wire s
  | .codecIsValid who frame => Sys2Proof.Machine.execCodecIsValid who frame s
  | .codecIsWellFormed who frame => Sys2Proof.Machine.execCodecIsWellFormed who frame s
  | .tmrStart delay => Sys2Proof.Machine.execTmrStart delay s
  | .tmrCancel => Sys2Proof.Machine.execTmrCancel s
  | .tmrTick => Sys2Proof.Machine.execTmrTick s
  | .tmrExpire => Sys2Proof.Machine.execTmrExpire s
  | .txLoad buf dest => Sys2Proof.Machine.execTxLoad buf dest s
  | .txSendPacket => Sys2Proof.Machine.execTxSendPacket s
  | .txTimeout => Sys2Proof.Machine.execTxTimeout s
  | .txPacketReceived => Sys2Proof.Machine.execTxPacketReceived s
  | .txRecv wire src => Sys2Proof.Machine.execTxRecv wire src s
  | .rxRecv wire src => Sys2Proof.Machine.execRxRecv wire src s

end Sys2Proof.Machine
end

