-- ==== Sys2Proof/Machine/Environment.lean ====
section
/-! DEFINITION. The environment's events, which have no row in the opcode table: the host's configuration writes (R36, R282), the
transport and third parties (R231, R232, R293), the construction of a fault injector (R233, R252), the platform's sockets (R254); then
how an operation comes to be started (R223) and what one step is. -/

namespace Sys2Proof.Machine

/-- R223: a configuration write is enabled after reset and before CFG.INIT. -/
def configEnabled (w : ConfigWrite) (s : State) : Bool :=
  match w with
  | .timeoutMs _ => !s.sender.common.initDone
  | .rxDedup _ => !s.receiver.common.initDone
  | .portData who _ => !(commonOf who s).initDone
  | .portAck who _ => !(commonOf who s).initDone

/-- R36: write one field of the configuration record. -/
def applyConfig (w : ConfigWrite) (s : State) : State :=
  match w with
  | .timeoutMs v => mapSender (fun n => { n with timeoutMs := v }) s
  | .rxDedup v => mapReceiver (fun n => { n with rxDedup := v }) s
  | .portData who p => mapCommon who (fun c => { c with portData := some p }) s
  | .portAck who p => mapCommon who (fun c => { c with portAck := some p }) s

/-- R223, U26. -/
def runConfigure (w : ConfigWrite) (s : State) : Outcome :=
  if configEnabled w s then .next (applyConfig w s) else .refused (.notEnabled .configure)

/-- R231: lose, duplicate or alter a datagram in flight; R293: a third party adds one. -/
def runTransport (a : TransportAction) (s : State) : Outcome :=
  match a with
  | .lose k =>
    if k < s.inFlight.length then .next { s with inFlight := s.inFlight.eraseIdx k }
    else .refused (.notEnabled .transport)
  | .duplicate k =>
    match s.inFlight[k]? with
    | none => .refused (.notEnabled .transport)
    | some d => .next { s with inFlight := s.inFlight ++ [d] }
  | .alter k wire =>
    match s.inFlight[k]? with
    | none => .refused (.notEnabled .transport)
    | some d => .next { s with inFlight := s.inFlight.set k { d with wire := wire } }
  | .inject d => .next { s with inFlight := s.inFlight ++ [d] }

/-- R233: the percentage outside 0 to 100, if there is one. DESIGN CHOICE (log 33): where several are outside, the spec says only "the
offending value" (R250), and the model takes the first in the order bitError, loss, duplicate. -/
def badPercentage (bitError loss duplicate : Int) : Option Int :=
  [bitError, loss, duplicate].find? fun v => decide (v < 0) || decide (100 < v)

/-- R240, R252, R282: an injector is constructed "before any traffic flows", which is before its side performs CFG.INIT (log 35). -/
def constructEnabled (who : Role) (s : State) : Bool := !(commonOf who s).initDone

/-- R233, R252: an injector is constructed, or fails with `InvalidConfiguration`. DESIGN CHOICE (log 34): the spec does not say which
injector a side has after a failed construction; in the model the percentages in force before it stay in force. -/
def runConstruct (who : Role) (bitError loss duplicate : Int) (s : State) : Outcome :=
  if constructEnabled who s then
    match badPercentage bitError loss duplicate with
    | some v => raiseError who (.invalidConfiguration v) s
    | none => .next (mapSide who (fun x => { x with injector := ⟨bitError.toNat, loss.toNat, duplicate.toNat⟩ }) s)
  else .refused (.notEnabled .construct)

/-- R282: one of the two sockets of a side works, or does not. -/
def setSocket (socket : Socket) (up : Bool) (x : Side) : Side :=
  match socket with
  | .outbound => { x with outboundUp := up }
  | .inbound => { x with inboundUp := up }

/-- R254: the platform's socket I/O of a side starts or stops working, on one of its sockets (log 20). -/
def runLink (who : Role) (socket : Socket) (up : Bool) (s : State) : Outcome := .next (mapSide who (setSocket socket up) s)

/-- R232: the instance a datagram in flight is addressed to; a datagram to any other destination is never delivered. -/
def destinationOf (d : Datagram) (s : State) : Option Role :=
  if d.dst.port.isSome && decide (d.dst = ownEndpoint .sender s) then some .sender
  else if d.dst.port.isSome && decide (d.dst = ownEndpoint .receiver s) then some .receiver
  else none

/-- R231, R232: the transport picks the `k`-th datagram up for delivery, removing it. (If the destination is not ready it goes back in
flight: `keepInFlight`.) -/
def pickUp (k : Nat) (s : State) : Option (Request × State) :=
  match s.inFlight[k]? with
  | none => none
  | some d =>
    match destinationOf d s with
    | none => none
    | some dest => some (.datagram dest d.src d.wire, { s with inFlight := s.inFlight.eraseIdx k })

/-- R254 (c): the platform's receive fails for the `k`-th datagram, because the inbound socket of the side it is addressed to does not work.
No operation of the block is started, and the datagram stays in flight (log 20). -/
def receiveFails (k : Nat) (s : State) : Bool :=
  match s.inFlight[k]? with
  | none => false
  | some d =>
    match destinationOf d s with
    | none => false
    | some dest => !(sideOf dest s).inboundUp

/-- What becomes of a request that decodes to no instruction: a label that names no operation has no meaning (R108, U13); a malformed or
ill-formed datagram is examined, and discarded, like any other (R101). -/
def runUndecoded (k : Config.Parameters) (r : Request) (why : DecodeError) (s : State) : Outcome :=
  match r with
  | .op _ _ => .refused (.noSuchOperation why)
  | .datagram dest src wire => receiveAt k dest wire src s

/-! ### Starting an operation (R223) -/

/-- R177, R223, R269: the operations an agent starts. The other four are "never by themselves", only steps of others. -/
def startable (i : Instr) : Bool :=
  match i with
  | .tmrStart _ => false
  | .tmrCancel => false
  | .txTimeout => false
  | .txPacketReceived => false
  | .data0 _ _ _ _ => true
  | .data0f _ _ _ _ => true
  | .ack0 _ _ _ _ => true
  | .ack0f _ _ _ _ => true
  | .data1 _ _ _ _ => true
  | .data1f _ _ _ _ => true
  | .ack1 _ _ _ _ => true
  | .ack1f _ _ _ _ => true
  | .reset _ => true
  | .cfgInit _ _ => true
  | .crcInit _ => true
  | .crcUpdate _ _ => true
  | .crcRead _ => true
  | .crcCompute _ _ => true
  | .codecEncode _ _ _ _ _ => true
  | .codecDecode _ _ => true
  | .codecIsValid _ _ => true
  | .codecIsWellFormed _ _ => true
  | .tmrTick => true
  | .tmrExpire => true
  | .txLoad _ _ => true
  | .txSendPacket => true
  | .txRecv _ _ => true
  | .rxRecv _ _ => true

/-- An arrival: the instance a datagram is handed to, its source and its bytes. -/
structure Arrival where
  dest : Role
  src  : Addr
  wire : List Byte
  deriving DecidableEq, Repr

/-- R194, R212, R232: the arrival that an instruction is. -/
def arrivalOfInstr (i : Instr) : Option Arrival :=
  match i with
  | .data0 dest src cks payload => some ⟨dest, src, frameWire ⟨0, 0, 0, cks, payload⟩⟩
  | .data0f dest src cks payload => some ⟨dest, src, frameWire ⟨0, 0, 1, cks, payload⟩⟩
  | .ack0 dest src cks payload => some ⟨dest, src, frameWire ⟨0, 1, 0, cks, payload⟩⟩
  | .ack0f dest src cks payload => some ⟨dest, src, frameWire ⟨0, 1, 1, cks, payload⟩⟩
  | .data1 dest src cks payload => some ⟨dest, src, frameWire ⟨1, 0, 0, cks, payload⟩⟩
  | .data1f dest src cks payload => some ⟨dest, src, frameWire ⟨1, 0, 1, cks, payload⟩⟩
  | .ack1 dest src cks payload => some ⟨dest, src, frameWire ⟨1, 1, 0, cks, payload⟩⟩
  | .ack1f dest src cks payload => some ⟨dest, src, frameWire ⟨1, 1, 1, cks, payload⟩⟩
  | .txRecv wire src => some ⟨.sender, src, wire⟩
  | .rxRecv wire src => some ⟨.receiver, src, wire⟩
  | .reset _ => none
  | .cfgInit _ _ => none
  | .crcInit _ => none
  | .crcUpdate _ _ => none
  | .crcRead _ => none
  | .crcCompute _ _ => none
  | .codecEncode _ _ _ _ _ => none
  | .codecDecode _ _ => none
  | .codecIsValid _ _ => none
  | .codecIsWellFormed _ _ => none
  | .tmrStart _ => none
  | .tmrCancel => none
  | .tmrTick => none
  | .tmrExpire => none
  | .txLoad _ _ => none
  | .txSendPacket => none
  | .txTimeout => none
  | .txPacketReceived => none

/-- The arrival that a request is: of a datagram of any bytes, or TX.RECV or RX.RECV by its label. -/
def arrivalOf (r : Request) : Option Arrival :=
  match r with
  | .datagram dest src wire => some ⟨dest, src, wire⟩
  | .op who bytes => (decode (.op who bytes)).toOption.bind arrivalOfInstr

/-- R177, R223: a request that names an operation no agent starts. -/
def neverByItself (r : Request) : Bool :=
  match decode r with
  | .ok i => !startable i
  | .error _ => false

/-- R223: the datagram in flight that an arrival takes up. -/
def arriving (a : Arrival) (s : State) : Datagram := ⟨ownEndpoint a.dest s, a.src, a.wire⟩

/-- R223: "a datagram for `(own address, PORT_ACK)` in flight", or `PORT_DATA` at the receiver. -/
def inTransit (a : Arrival) (s : State) : Bool :=
  (ownEndpoint a.dest s).port.isSome && decide (arriving a s ∈ s.inFlight)

/-- Decode a request and perform it. `ex` says what an instruction does, `k` what the checksum is (R10): the machine's step takes `exec`
and `hardware`. -/
def performBy (ex : Instr → State → Outcome) (k : Config.Parameters) (r : Request) (s : State) : Outcome :=
  match decode r with
  | .ok i => ex i s
  | .error why => runUndecoded k r why s

/-- R231, R254 (c): take an arriving datagram up and start the receiving operation; while the side's inbound socket does not work nothing is
started and the datagram stays in flight (log 20). Without such a datagram the arrival is not enabled (R223). -/
def arriveBy (ex : Instr → State → Outcome) (k : Config.Parameters) (r : Request) (a : Arrival) (s : State) : Outcome :=
  if inTransit a s then
    if (sideOf a.dest s).inboundUp then performBy ex k r { s with inFlight := s.inFlight.erase (arriving a s) } else .next s
  else .refused (.notEnabled .noDatagram)

/-- R223: an agent starts an operation, or a datagram arrives. -/
def startBy (ex : Instr → State → Outcome) (k : Config.Parameters) (r : Request) (s : State) : Outcome :=
  match arrivalOf r with
  | some a => arriveBy ex k r a s
  | none => if neverByItself r then .refused (.notEnabled .neverByItself) else performBy ex k r s

/-- R232, R254 (c): the delivery of the `n`-th datagram in flight. -/
def deliverBy (ex : Instr → State → Outcome) (k : Config.Parameters) (n : Nat) (s : State) : Outcome :=
  if receiveFails n s then .next s
  else
    match pickUp n s with
    | none => .refused (.notEnabled .transport)
    | some (r, t) => performBy ex k r t

/-- Perform one event. -/
def eventBy (ex : Instr → State → Outcome) (k : Config.Parameters) (e : Event) (s : State) : Outcome :=
  match e with
  | .request r => startBy ex k r s
  | .deliver n => deliverBy ex k n s
  | .configure w => runConfigure w s
  | .transport a => runTransport a s
  | .construct who bitError loss duplicate => runConstruct who bitError loss duplicate s
  | .link who socket up => runLink who socket up s

/-- R173, R189: an enabled spontaneous operation is performed before the instance can rest. R225: otherwise the machine rests. -/
def spontaneousBy (ex : Instr → State → Outcome) (s : State) : Outcome :=
  if sendEnabled s then ex .txSendPacket s
  else if expiryEnabled s then ex .tmrExpire s
  else .next s

/-- The first event of the agenda and the state without it (log 2). -/
def nextEvent (s : State) : Option (Event × State) :=
  match s.agenda with
  | [] => none
  | e :: rest => some (e, { s with agenda := rest })

/-- One step: the operation a unit performs next as a step of another, if there is one (log 6); else the next event of the agenda; with an
empty agenda, the spontaneous operation that is enabled, or rest. -/
def stepBy (ex : Instr → State → Outcome) (k : Config.Parameters) (s : State) : Outcome :=
  match s.unitCall with
  | some r => performBy ex k r { s with unitCall := none }
  | none =>
    match nextEvent s with
    | some (e, t) => eventBy ex k e t
    | none => spontaneousBy ex s

/-! ### Placing a table row's word (log 4) -/

/-- CFG.INIT has been performed with success (R283). -/
def started (c : Common) : Common := { c with initDone := true, halted := false }

/-- An instance is not halted. -/
def unhalted (c : Common) : Common := { c with halted := false }

/-- R11, R36: `PORT_DATA` as supplied; where the host has supplied none, a number of the model's. DESIGN CHOICE (log 36): the spec leaves the
numbers open; the model takes 0, or 1 where `PORT_ACK` is 0. -/
def dataPortOr (c : Common) : Port := c.portData.getD (if c.portAck = some 0 then 1 else 0)

/-- R11, R36: `PORT_ACK` as supplied; where the host has supplied none, a number of the model's other than `PORT_DATA`'s. DESIGN CHOICE
(log 36): the spec leaves the numbers open; the model takes 1, or 0 where `PORT_DATA` is not 0. -/
def ackPortOr (c : Common) : Port := c.portAck.getD (if dataPortOr c = 0 then 1 else 0)

/-- R223: the guard of the instance that receives a datagram holds: its port is supplied (by the host, or as log 36 says), it is started, its inbound socket works, and a sender
is in a `WaitForAck` state (log 4). -/
def readyToReceive (dest : Role) (s : State) : State :=
  match dest with
  | .receiver =>
    mapSide .receiver (fun x => { x with inboundUp := true })
      (mapCommon .receiver (fun c => { started c with portData := some (dataPortOr c) }) s)
  | .sender =>
    mapSide .sender (fun x => { x with inboundUp := true })
      (mapSender (fun n => { n with txState := waitForAckOf (txSeq n.txState) })
        (mapCommon .sender (fun c => { started c with portAck := some (ackPortOr c) }) s))

/-- R223: the state in which the guard of an instruction holds, for a host that asks for that instruction to be the next one. The
block does not fetch: an operation is started only when its guard holds, so this is what starting it takes (log 4). The numbers of
ports that the host has not supplied are the model's choice (log 36). -/
def meetGuard (i : Instr) (s : State) : State :=
  match i with
  | .data0 dest _ _ _ => readyToReceive dest s
  | .data0f dest _ _ _ => readyToReceive dest s
  | .ack0 dest _ _ _ => readyToReceive dest s
  | .ack0f dest _ _ _ => readyToReceive dest s
  | .data1 dest _ _ _ => readyToReceive dest s
  | .data1f dest _ _ _ => readyToReceive dest s
  | .ack1 dest _ _ _ => readyToReceive dest s
  | .ack1f dest _ _ _ => readyToReceive dest s
  | .txRecv _ _ => readyToReceive .sender s
  | .rxRecv _ _ => readyToReceive .receiver s
  | .cfgInit who _ =>
    mapCommon who (fun c =>
      { unhalted c with initDone := false, portData := some (dataPortOr c), portAck := some (ackPortOr c) }) s
  | .tmrExpire => startTimer 0 (mapCommon .sender unhalted s)
  | .txLoad _ _ => mapCommon .sender started s
  | .txSendPacket =>
    mapSender (fun n => { n with txActive := true, txState := if txSeq n.txState then .waitForCall1 else .waitForCall0 })
      (mapCommon .sender started s)
  | .reset _ => s
  | .crcInit who => mapCommon who unhalted s
  | .crcUpdate who _ => mapCommon who unhalted s
  | .crcRead who => mapCommon who unhalted s
  | .crcCompute who _ => mapCommon who unhalted s
  | .codecEncode who _ _ _ _ => mapCommon who unhalted s
  | .codecDecode who _ => mapCommon who unhalted s
  | .codecIsValid who _ => mapCommon who unhalted s
  | .codecIsWellFormed who _ => mapCommon who unhalted s
  | .tmrStart _ => mapCommon .sender started s
  | .tmrCancel => mapCommon .sender started s
  | .tmrTick => mapCommon .sender unhalted s
  | .txTimeout => mapCommon .sender started s
  | .txPacketReceived => mapCommon .sender started s

/-- A request as the first event of the agenda. -/
def scheduleFirst (r : Request) (s : State) : State := { s with agenda := .request r :: s.agenda, unitCall := none }

/-- A request as the very next thing the machine performs: an arrival with its datagram in flight; an operation that is never performed by
itself as one that a unit performs (log 6); any other as the next event. -/
def placeRequest (r : Request) (s : State) : State :=
  match arrivalOf r with
  | some a => scheduleFirst r { s with inFlight := arriving a s :: s.inFlight }
  | none => if neverByItself r then { s with unitCall := some r } else scheduleFirst r s

/-- A table row's word as the very next thing the machine performs, in a state where the guard of its instruction holds (log 4). -/
def placeTableWord (nbits w : Nat) (s : State) : State :=
  match tableRequest nbits w with
  | none => s
  | some r =>
    match decode r with
    | .ok i => placeRequest r (meetGuard i s)
    | .error _ => placeRequest r s

end Sys2Proof.Machine
end

