-- ==== Sys2Proof/Machine/Variant.lean ====
section
/-! DEFINITION. The machine with any checksum in the place of this hardware's (R10: "so that a claim may be stated for any CRC where it
does not depend on the variant"). At `hardware` it is `exec` and `step` (Laws/Variant.lean). The shift register of CRC.INIT, CRC.UPDATE
and CRC.READ (R131 to R133), which no frame goes through as an operation of its own, is this hardware's for every checksum. -/

namespace Sys2Proof.Machine

/-- What an instruction does, with the checksum `k`. -/
def execWith (k : Config.Parameters) (i : Instr) (s : State) : Outcome :=
  match i with
  | .data0 dest src cks payload => receiveAt k dest (frameWire ⟨0, 0, 0, cks, payload⟩) src s
  | .data0f dest src cks payload => receiveAt k dest (frameWire ⟨0, 0, 1, cks, payload⟩) src s
  | .ack0 dest src cks payload => receiveAt k dest (frameWire ⟨0, 1, 0, cks, payload⟩) src s
  | .ack0f dest src cks payload => receiveAt k dest (frameWire ⟨0, 1, 1, cks, payload⟩) src s
  | .data1 dest src cks payload => receiveAt k dest (frameWire ⟨1, 0, 0, cks, payload⟩) src s
  | .data1f dest src cks payload => receiveAt k dest (frameWire ⟨1, 0, 1, cks, payload⟩) src s
  | .ack1 dest src cks payload => receiveAt k dest (frameWire ⟨1, 1, 0, cks, payload⟩) src s
  | .ack1f dest src cks payload => receiveAt k dest (frameWire ⟨1, 1, 1, cks, payload⟩) src s
  | .reset who => execReset who s
  | .cfgInit who bindOk => execCfgInit who bindOk s
  | .crcInit who => execCrcInit who s
  | .crcUpdate who b => execCrcUpdate who b s
  | .crcRead who => execCrcRead who s
  | .crcCompute who bytes => computeWith k who bytes s
  | .codecEncode who sb ab fb payload => encodeOpWith k who sb ab fb payload s
  | .codecDecode who wire => execCodecDecode who wire s
  | .codecIsValid who frame => isValidWith k who frame s
  | .codecIsWellFormed who frame => execCodecIsWellFormed who frame s
  | .tmrStart delay => execTmrStart delay s
  | .tmrCancel => execTmrCancel s
  | .tmrTick => execTmrTick s
  | .tmrExpire => expireWith k s
  | .txLoad buf dest => execTxLoad buf dest s
  | .txSendPacket => sendPacketWith k s
  | .txTimeout => timeoutWith k s
  | .txPacketReceived => execTxPacketReceived s
  | .txRecv wire src => receiveAtSender k wire src s
  | .rxRecv wire src => receiveAtReceiver k wire src s

/-- One step, with the checksum `k`. -/
def stepWith (k : Config.Parameters) (s : State) : Outcome := stepBy (execWith k) k s

end Sys2Proof.Machine
end

