-- ==== Sys2Proof/Safety.lean ====
section
/-! DEFINITION. The terms claims are stated in: the end of a run (R272), the invariants of the state (R42, R43, R60, R177, R223),
and runs of a few operations. -/

namespace Sys2Proof.Safety

open Sys2Proof.Machine

/-- R272: a sender instance is quiescent. -/
def quiescent (n : Sender) : Bool := (!n.txActive && !n.tmrArmed) || n.common.halted

/-- R272: a receiver instance is between cycles. -/
def betweenCycles (n : Receiver) : Bool := decide (n.rxLen = 0)

/-- R272: a system run is over. -/
def runOver (s : State) : Bool := quiescent s.sender && s.inFlight.isEmpty && betweenCycles s.receiver

/-- R60, log 14: every space is in canonical form. -/
structure MemoriesCanonical (s : State) : Prop where
  txBuf            : Memory.wf s.sender.txBuf = true
  rxBuf            : Memory.wf s.receiver.rxBuf = true
  senderFrameOut   : Memory.wf s.sender.common.frameOut = true
  senderFrameIn    : Memory.wf s.sender.common.frameIn = true
  receiverFrameOut : Memory.wf s.receiver.common.frameOut = true
  receiverFrameIn  : Memory.wf s.receiver.common.frameIn = true

/-- The bytes of a space from offset 0 up to `n` have been written (R224: "no byte is read that has not been written"). -/
def written (m : Memory) (n : Nat) : Prop := ∀ a, a < n → (m.read a).isSome = true

/-- R15: `m'` is `m` with the bytes stored from offset `k`: every byte inside is the one stored, every byte outside is as before. -/
def stored (m m' : Memory) (k : Nat) (bytes : List Byte) : Prop :=
  (∀ i, i < bytes.length → m'.read (k + i) = bytes[i]?) ∧ (∀ a, a < k ∨ k + bytes.length ≤ a → m'.read a = m.read a)

/-- R60 (d): a space that holds these bytes from offset 0 and nothing else. -/
def holdsExactly (m : Memory) (bytes : List Byte) : Prop := ∀ a, m.read a = bytes[a]?

/-- R99: the frame kind with these three fields. -/
def frameKind (seq ack fin : Bool) (dest : Role) (src : Addr) (cks : BitVec 64) (payload : List Byte) : Instr :=
  match seq, ack, fin with
  | false, false, false => .data0 dest src cks payload
  | false, false, true => .data0f dest src cks payload
  | false, true, false => .ack0 dest src cks payload
  | false, true, true => .ack0f dest src cks payload
  | true, false, false => .data1 dest src cks payload
  | true, false, true => .data1f dest src cks payload
  | true, true, false => .ack1 dest src cks payload
  | true, true, true => .ack1f dest src cks payload

/-- R92 to R94: the six bytes in front of the checksum, from the logical fields. -/
def prefixBytes (seq ack fin : Bool) : List Byte :=
  [0, 0, 0, bitByte seq, bitByte ack, bitByte fin]

/-- R95, R98: the checksum field a frame with these fields carries. -/
def rightChecksum (seq ack fin : Bool) (payload : List Byte) : BitVec 64 :=
  (crc32 (prefixBytes seq ack fin ++ payload)).setWidth 64

/-- R213: the fourteen bytes of `ACK0` and `ACK1`, as the spec prints them. -/
def ackBytes (seq : Bool) : List Byte :=
  if seq then [0, 0, 0, 1, 1, 0, 0, 0, 0, 0, 0xA9, 0x1B, 0xFA, 0xD5]
  else [0, 0, 0, 0, 1, 0, 0, 0, 0, 0, 0xA8, 0xD9, 0x90, 0xE2]

/-- R213: their checksums. -/
def ackChecksum (seq : Bool) : Crc := if seq then 0xA91BFAD5 else 0xA8D990E2

/-- R231, R238 to R240, R254: the datagrams a `send` of these bytes adds to the transport. -/
def addedCopies (who : Role) (dst : Endpoint) (wire : List Byte) (s : State) : List Datagram :=
  (if (sideOf who s).outboundUp then injectedCopies (sideOf who s).injector (Config.draw s.free) wire else []).map
    fun w => ⟨dst, (commonOf who s).addr, w⟩

/-- R136 (c): CRC.UPDATE for each byte of a sequence, in order. -/
def updateAll (who : Role) (bytes : List Byte) (s : State) : Outcome :=
  match bytes with
  | [] => .next s
  | b :: bs => andThen (exec (.crcUpdate who b) s) (updateAll who bs)

/-- R172: `k` ticks of the clock, one after the other. -/
def tickTimes (k : Nat) (s : State) : Outcome :=
  match k with
  | 0 => .next s
  | k + 1 => andThen (exec .tmrTick s) (tickTimes k)

/-- R185: `n` rounds of sending a chunk and having it acknowledged, with the checksum `k` (R10). -/
def sendRounds (k : Config.Parameters) (n : Nat) (s : State) : Outcome :=
  match n with
  | 0 => .next s
  | n + 1 => andThen (andThen (execWith k .txSendPacket s) (execWith k .txPacketReceived)) (sendRounds k n)

/-- R219: one round over a transport that does nothing to the datagrams: a chunk is sent, the datagram is delivered, its acknowledgement
is delivered. -/
def cleanRound (s : State) : Outcome :=
  andThen (andThen (exec .txSendPacket s) (deliverBy exec hardware 0)) (deliverBy exec hardware 0)

/-- `k` such rounds. -/
def cleanRounds (k : Nat) (s : State) : Outcome :=
  match k with
  | 0 => .next s
  | k + 1 => andThen (cleanRound s) (cleanRounds k)

/-- An output that hands a buffer to the receiver's host (R242). -/
def isDelivery (o : Output) : Bool :=
  match o with
  | .delivered _ => true
  | _ => false

/-- R198: the number of chunks of a buffer. -/
def chunkCount (len : Nat) : Nat := max 1 ((len + 1399) / 1400)

/-- R188, R198: what the `j`-th chunk of a buffer is sent as, with the checksum `k` (R10). -/
def chunkOutput (k : Config.Parameters) (dst : Endpoint) (buf : List Byte) (j : Nat) : Output :=
  .sent .sender dst
    (encodeWith k (decide (j % 2 = 1)) false (decide (j + 1 = chunkCount buf.length)) (slice (1400 * j) (1400 * (j + 1)) buf))

/-- R108: the instance that performs an instruction. -/
def performer (i : Instr) : Role :=
  match i with
  | .data0 dest _ _ _ => dest
  | .data0f dest _ _ _ => dest
  | .ack0 dest _ _ _ => dest
  | .ack0f dest _ _ _ => dest
  | .data1 dest _ _ _ => dest
  | .data1f dest _ _ _ => dest
  | .ack1 dest _ _ _ => dest
  | .ack1f dest _ _ _ => dest
  | .reset who => who
  | .cfgInit who _ => who
  | .crcInit who => who
  | .crcUpdate who _ => who
  | .crcRead who => who
  | .crcCompute who _ => who
  | .codecEncode who _ _ _ _ => who
  | .codecDecode who _ => who
  | .codecIsValid who _ => who
  | .codecIsWellFormed who _ => who
  | .tmrStart _ => .sender
  | .tmrCancel => .sender
  | .tmrTick => .sender
  | .tmrExpire => .sender
  | .txLoad _ _ => .sender
  | .txSendPacket => .sender
  | .txTimeout => .sender
  | .txPacketReceived => .sender
  | .txRecv _ _ => .sender
  | .rxRecv _ _ => .receiver

/-- R194, R232: an instruction that is the arrival of a datagram at the sender. -/
def arrivesAtSender (i : Instr) : Bool :=
  match i with
  | .data0 dest _ _ _ => dest == .sender
  | .data0f dest _ _ _ => dest == .sender
  | .ack0 dest _ _ _ => dest == .sender
  | .ack0f dest _ _ _ => dest == .sender
  | .data1 dest _ _ _ => dest == .sender
  | .data1f dest _ _ _ => dest == .sender
  | .ack1 dest _ _ _ => dest == .sender
  | .ack1f dest _ _ _ => dest == .sender
  | .txRecv _ _ => true
  | .reset _ => false
  | .cfgInit _ _ => false
  | .crcInit _ => false
  | .crcUpdate _ _ => false
  | .crcRead _ => false
  | .crcCompute _ _ => false
  | .codecEncode _ _ _ _ _ => false
  | .codecDecode _ _ => false
  | .codecIsValid _ _ => false
  | .codecIsWellFormed _ _ => false
  | .tmrStart _ => false
  | .tmrCancel => false
  | .tmrTick => false
  | .tmrExpire => false
  | .txLoad _ _ => false
  | .txSendPacket => false
  | .txTimeout => false
  | .txPacketReceived => false
  | .rxRecv _ _ => false

/-- R42 and what keeps it: the invariant of a sender instance. -/
structure SenderInv (n : Sender) : Prop where
  /-- R42: `tx_last <= 1400` -/
  lastBound     : n.txLast.toNat ≤ Config.packetSize
  /-- R42: `tx_sent <= tx_len` always -/
  sentBound     : n.txSent ≤ n.txLen
  /-- R42: `tx_last <= tx_sent` in a `WaitForAck` state -/
  lastSent      : txWaiting n.txState = true → n.txLast.toNat ≤ n.txSent
  /-- R42: `tmr_armed = 1` exactly in the `WaitForAck` states -/
  armedWaiting  : n.tmrArmed = txWaiting n.txState
  /-- R42: `tx_active = 1` in a `WaitForAck` state -/
  waitingActive : txWaiting n.txState = true → n.txActive = true
  /-- R42: `tx_sent` is a multiple of 1400 in a `WaitForCall` state of a running transfer -/
  callStride    : txWaiting n.txState = false → n.txActive = true → Config.packetSize ∣ n.txSent
  /-- R188: the chunk in hand starts at a multiple of 1400 -/
  chunkStart    : txWaiting n.txState = true → Config.packetSize ∣ n.txSent - n.txLast.toNat
  /-- R188: the chunk in hand is as long as the buffer allows -/
  chunkLength   : txWaiting n.txState = true →
    n.txLast.toNat = min Config.packetSize (n.txLen - (n.txSent - n.txLast.toNat))
  /-- R223: no transfer runs before CFG.INIT or on a halted instance -/
  activeStarted : n.txActive = true → n.common.initDone = true ∧ n.common.halted = false
  /-- R224: the transfer buffer of a running transfer has been written -/
  loaded        : n.txActive = true → written n.txBuf n.txLen

/-- The invariant of a receiver instance: the bytes of the current cycle have been written (R224), and a finite capacity is kept to
(R218). -/
structure ReceiverInv (n : Receiver) : Prop where
  received : written n.rxBuf n.rxLen
  capacity : ∀ m, n.rxBufMax = some m → n.rxLen ≤ m

/-- The invariant of the system. -/
structure SystemInv (s : State) : Prop where
  sender    : SenderInv s.sender
  receiver  : ReceiverInv s.receiver
  memories  : MemoriesCanonical s
  /-- R177, R223: nothing but a unit of the block performs the operations that are never by themselves (log 6) -/
  unitCall  : s.unitCall = none

end Sys2Proof.Safety
end

