-- ==== Sys2Proof/Certificates/Slice0/Obligations.lean ====
section
/-! DEFINITION. The statements for the provers, from the numbered rules of spec/. `stored` and `holdsExactly` (Safety) speak of a space
through its read of one byte; wherever a conclusion equates the next state with a record `{ s with ... }`, every field not named there is
unchanged: that is the frame. -/

open Sys2Proof Sys2Proof.Machine Sys2Proof.Safety

/-! ### Encoding -/

/-- R99, R108 (operand layout: log 3, the model's choice): every well-formed instruction, with every operand, survives encoding. -/
def Obligations.DecodeEncodeRoundTrip : Prop :=
  ∀ i : Instr, i.wellFormed = true → decode (encode i) = .ok i

/-- R99, R102, R108 (operand layout: log 3): a request that decodes has one meaning, and the instruction is well-formed. -/
def Obligations.EncodeDecodeRoundTrip : Prop :=
  ∀ (r : Request) (i : Instr), decode r = .ok i → i.wellFormed = true ∧ encode i = r

/-- R99, R108: words written out from the spec's own tables. -/
def Obligations.SampleWordsDecode : Prop :=
  decode (.datagram .receiver 7 [0, 0, 0, 0, 0, 1, 0, 0, 0, 0, 0x94, 0xD0, 0xEB, 0x1B, 0x61, 0x62, 0x63])
      = .ok (.data0f .receiver 7 0x94D0EB1B [0x61, 0x62, 0x63]) ∧
  decode (.datagram .sender 7 [0, 0, 0, 1, 1, 0, 0, 0, 0, 0, 0xA9, 0x1B, 0xFA, 0xD5]) = .ok (.ack1 .sender 7 0xA91BFAD5 []) ∧
  decode (.op .receiver [0x00]) = .ok (.reset .receiver) ∧
  decode (.op .sender [0x11, 0x61]) = .ok (.crcUpdate .sender 0x61) ∧
  decode (.op .sender [0x33]) = .ok .tmrExpire ∧
  decode (.op .sender [0x41]) = .ok .txSendPacket ∧
  decode (.op .sender [0x99]) = .error .noOperation ∧
  decode (.op .sender [0x50, 0, 0, 0, 0]) = .error .wrongInstance ∧
  decode (.datagram .sender 7 [0, 0, 0, 2, 0, 0, 0, 0, 0, 0, 0xB2, 0x46, 0x75, 0xCD]) = .error .illFormed

/-- R91, R99, R101: a datagram of legal length is one of the eight kinds, by its three fields, or is ill-formed. -/
def Obligations.FrameKindsByFields : Prop :=
  ∀ (dest : Role) (src : Addr) (wire : List Byte), 14 ≤ wire.length → wire.length ≤ 1414 →
    ∃ f : Frame, parseFrame wire = .ok f ∧
      decode (.datagram dest src wire) =
        if f.seq.toNat ≤ 1 ∧ f.ack.toNat ≤ 1 ∧ f.fin.toNat ≤ 1
        then .ok (frameKind (decide (f.seq = 1)) (decide (f.ack = 1)) (decide (f.fin = 1)) dest src f.cks f.payload)
        else .error .illFormed

/-! ### The checksum generator -/

/-- R131, with its label and its example: CRC.READ afterwards returns 0. On an instance that is not halted (R35). -/
def Obligations.CrcInitSetsAllOnes : Prop :=
  ∀ (who : Role) (s : State), decode (.op who [0x10]) = .ok (.crcInit who) ∧ ((commonOf who s).halted = false → ∃ t : State,
    exec (.crcInit who) s = .next t ∧ t = mapCommon who (fun c => { c with crcAcc := 0xFFFFFFFF }) s ∧
    exec (.crcRead who) t = .next (emit (.result who (.crc 0)) t))

/-- R132, with its label (the operand byte behind it is log 3's layout, the model's choice): the eight shift steps, on an instance that is
not halted (R35); a bijection on the accumulator; linear over GF(2); the zero byte is no no-op; the example with its intermediate values. -/
def Obligations.CrcUpdateShiftsEightTimes : Prop :=
  (∀ (who : Role) (b : Byte), decode (.op who [0x11, b]) = .ok (.crcUpdate who b)) ∧
  (∀ (who : Role) (b : Byte) (s : State), (commonOf who s).halted = false →
    exec (.crcUpdate who b) s = .next (mapCommon who (fun c =>
      { c with crcAcc :=
          (fun t : Crc => if t.getLsbD 0 then (t >>> 1) ^^^ 0xEDB88320#32 else t >>> 1)^[8] (c.crcAcc ^^^ b.setWidth 32) }) s)) ∧
  (∀ b : Byte, Function.Bijective fun acc => crcStep Config.crc acc b) ∧
  (∀ (x y : Crc) (b c : Byte), crcStep Config.crc (x ^^^ y) (b ^^^ c) = crcStep Config.crc x b ^^^ crcStep Config.crc y c) ∧
  crcStep Config.crc 0xFFFFFFFF 0 = 0x2DFD1072 ∧ crcStep Config.crc 0xFFFFFFFF 0x61 = 0x174841BC ∧
  (List.range 9).map (fun k => crcShifts 0xEDB88320 k (0xFFFFFFFF ^^^ 0x61)) =
    [0xFFFFFF9E, 0x7FFFFFCF, 0xD2477CC7, 0x849B3D43, 0xAFF51D81, 0xBA420DE0, 0x5D2106F0, 0x2E908378, 0x174841BC]

/-- R133, with its label: on an instance that is not halted (R35), the complement of the accumulator; nothing is written; updates may go on
and a later read covers the longer sequence. -/
def Obligations.CrcReadLeavesAccumulator : Prop :=
  (∀ who : Role, decode (.op who [0x12]) = .ok (.crcRead who)) ∧
  (∀ (who : Role) (s : State), (commonOf who s).halted = false →
    exec (.crcRead who) s = .next (emit (.result who (.crc ((commonOf who s).crcAcc ^^^ 0xFFFFFFFF))) s)) ∧
  (∀ (who : Role) (s : State) (done more : List Byte), (commonOf who s).halted = false →
    (commonOf who s).crcAcc = crc32 done ^^^ 0xFFFFFFFF →
    ∃ t u : State, exec (.crcRead who) s = .next t ∧ updateAll who more t = .next u ∧
      exec (.crcRead who) u = .next (emit (.result who (.crc (crc32 (done ++ more)))) u)) ∧
  crcFinish Config.crc 0x174841BC = 0xE8B7BE43 ∧ crc32 [0x61] = 0xE8B7BE43

/-- R134, with its label (the byte sequence behind it is log 3's layout, the model's choice), on an instance that is not halted (R35):
CRC.COMPUTE is CRC.INIT, CRC.UPDATE for each byte, CRC.READ; it returns `crc32(B)` and leaves its complement. -/
def Obligations.CrcComputeIsInitUpdatesRead : Prop :=
  (∀ (who : Role) (bytes : List Byte), decode (.op who (0x13 :: bytes)) = .ok (.crcCompute who bytes)) ∧
  (∀ (who : Role) (bytes : List Byte) (s : State), (commonOf who s).halted = false → ∃ t : State,
    andThen (exec (.crcInit who) s) (updateAll who bytes) = .next t ∧
    exec (.crcCompute who bytes) s = exec (.crcRead who) t ∧
    exec (.crcCompute who bytes) s = .next (emit (.result who (.crc (crc32 bytes)))
      (mapCommon who (fun c => { c with crcAcc := crc32 bytes ^^^ 0xFFFFFFFF }) s))) ∧
  crc32 [] = 0 ∧ crc32 [0x31, 0x32, 0x33, 0x34, 0x35, 0x36, 0x37, 0x38, 0x39] = 0xCBF43926

/-- R135: the printed table is eight shift steps of each index, and the byte-at-a-time form over it is the bitwise step. -/
def Obligations.CrcTableFormAgrees : Prop :=
  (∀ i : Byte, crcTable[i.toNat]? = some (crcShifts 0xEDB88320 8 (i.setWidth 32))) ∧
  ∀ (acc : Crc) (b : Byte), crcStep Config.crc acc b = crcStepByTable acc b

/-- R136 (b), (c), (d). -/
def Obligations.CrcIncrementalAndAffine : Prop :=
  crc32 [] = 0 ∧
  (∀ a b : List Byte, crcAfter hardware (a ++ b) = crcRun Config.crc (crcAfter hardware a) b) ∧
  ∀ a b c : List Byte, a.length = b.length → b.length = c.length →
    crc32 a ^^^ crc32 b ^^^ crc32 c = crc32 (List.zipWith (· ^^^ ·) (List.zipWith (· ^^^ ·) a b) c)

/-- R136 (e) for spans that begin and end at a byte: a change within at most four consecutive bytes is always detected. -/
def Obligations.CrcDetectsFourByteBursts : Prop :=
  ∀ before x y after : List Byte, x.length = y.length → x.length ≤ 4 → x ≠ y →
    crc32 (before ++ x ++ after) ≠ crc32 (before ++ y ++ after)

/-! ### The frame codec -/

/-- R150, with its label (the layout of the operand bytes is log 3's, the model's choice), on an instance that is not halted (R35): the
wire bytes, what is written, and the one error. -/
def Obligations.EncodeBuildsWireFrame : Prop :=
  (∀ (who : Role) (q a f : Bool) (payload : List Byte),
    decode (.op who (0x20 :: bitByte q :: bitByte a :: bitByte f :: payload)) = .ok (.codecEncode who q a f payload)) ∧
  (∀ (who : Role) (q a f : Bool) (payload : List Byte) (s : State), (commonOf who s).halted = false → payload.length ≤ 1400 →
    ∃ (wire : List Byte) (out : Memory),
      wire = prefixBytes q a f ++ be 8 (crc32 (prefixBytes q a f ++ payload)).toNat ++ payload ∧
      wire.length = 14 + payload.length ∧ stored (commonOf who s).frameOut out 0 wire ∧
      exec (.codecEncode who q a f payload) s = .next (emit (.result who (.wire wire))
        (mapCommon who (fun c =>
          { c with crcAcc := crc32 (prefixBytes q a f ++ payload) ^^^ 0xFFFFFFFF, frameOut := out }) s))) ∧
  (∀ (who : Role) (q a f : Bool) (payload : List Byte) (s : State), (commonOf who s).halted = false → 1400 < payload.length →
    exec (.codecEncode who q a f payload) s = .next (emit (.error who (.payloadTooLarge payload.length)) s)) ∧
  encodeBytes false true false [] = [0, 0, 0, 0, 1, 0, 0, 0, 0, 0, 0xA8, 0xD9, 0x90, 0xE2]

/-- R152, with its label (the byte sequence behind it is log 3's layout, the model's choice), on an instance that is not halted (R35): the
five fields of a datagram of legal length, and the two length errors; no state is written. -/
def Obligations.DecodeParsesFields : Prop :=
  (∀ (who : Role) (wire : List Byte), decode (.op who (0x21 :: wire)) = .ok (.codecDecode who wire)) ∧
  (∀ (who : Role) (wire : List Byte) (s : State), (commonOf who s).halted = false → 14 ≤ wire.length → wire.length ≤ 1414 →
    exec (.codecDecode who wire) s = .next (emit (.result who (.frame
      { seq := wire.getD 0 0 ++ wire.getD 1 0 ++ wire.getD 2 0 ++ wire.getD 3 0
        ack := wire.getD 4 0
        fin := wire.getD 5 0
        cks := wire.getD 6 0 ++ wire.getD 7 0 ++ wire.getD 8 0 ++ wire.getD 9 0 ++
          wire.getD 10 0 ++ wire.getD 11 0 ++ wire.getD 12 0 ++ wire.getD 13 0
        payload := wire.drop 14 })) s)) ∧
  (∀ (who : Role) (wire : List Byte) (s : State), (commonOf who s).halted = false → wire.length < 14 →
    exec (.codecDecode who wire) s = .next (emit (.error who (.malformed .tooShort)) s)) ∧
  (∀ (who : Role) (wire : List Byte) (s : State), (commonOf who s).halted = false → 1414 < wire.length →
    exec (.codecDecode who wire) s = .next (emit (.error who (.malformed .tooLong)) s)) ∧
  parseFrame [0, 0, 0, 1, 1, 0, 0, 0, 0, 0, 0xA9, 0x1B, 0xFA, 0xD5] = .ok ⟨1, 1, 0, 0x00000000A91BFAD5, []⟩

/-- R156, both directions, for every checksum (R10): it does not depend on the variant. At `hardware` these are the machine's ENCODE,
DECODE and ISVALID. -/
def Obligations.FrameCodecRoundTrip : Prop :=
  (∀ (k : Config.Parameters) (q a f : Bool) (payload : List Byte), payload.length ≤ 1400 →
    ∃ F : Frame, parseFrame (encodeWith k q a f payload) = .ok F ∧
      F.seq.toNat = q.toNat ∧ F.ack.toNat = a.toNat ∧ F.fin.toNat = f.toNat ∧ F.payload = payload ∧
      validWith k F = true ∧ frameWellFormed F = true) ∧
  ∀ (k : Config.Parameters) (wire : List Byte) (F : Frame), parseFrame wire = .ok F → frameWellFormed F = true →
    validWith k F = true → encodeWith k (F.seq.getLsbD 0) (F.ack.getLsbD 0) (F.fin.getLsbD 0) F.payload = wire

/-- R154, with its label (operand layout: log 3, the model's choice), on an instance that is not halted (R35): all 64 bits of the field are compared with the checksum of the header as received and
the payload; only the scratch accumulator is written; validity does not need the fields to be in range; for a well-formed frame the
header is the canonical one. -/
def Obligations.IsValidComparesAllBits : Prop :=
  (∀ (who : Role) (F : Frame), F.payload.length ≤ 1400 → decode (.op who (0x22 :: frameWire F)) = .ok (.codecIsValid who F)) ∧
  (∀ (who : Role) (F : Frame) (s : State), (commonOf who s).halted = false →
    exec (.codecIsValid who F) s = .next (emit
      (.result who (.flag (decide (F.cks.toNat = (crc32 (be 4 F.seq.toNat ++ [F.ack] ++ [F.fin] ++ F.payload)).toNat))))
      (mapCommon who (fun c =>
        { c with crcAcc := crc32 (be 4 F.seq.toNat ++ [F.ack] ++ [F.fin] ++ F.payload) ^^^ 0xFFFFFFFF }) s))) ∧
  (∀ F : Frame, F.cks.extractLsb' 32 32 ≠ 0 → frameValid F = false) ∧
  (∀ F : Frame, frameWellFormed F = true → be 4 F.seq.toNat ++ [F.ack] ++ [F.fin] =
    prefixBytes (F.seq.getLsbD 0) (F.ack.getLsbD 0) (F.fin.getLsbD 0)) ∧
  frameValid ⟨2, 0, 0, 0x00000000B24675CD, []⟩ = true ∧
  frameValid ⟨0, 1, 0, 0x00000000A8D990E2, []⟩ = true ∧ frameValid ⟨0, 1, 0, 0x01000000A8D990E2, []⟩ = false

/-- R155, with its label (operand layout: log 3, the model's choice), on an instance that is not halted (R35): the three ranges; independent of validity; a frame that is not well-formed fails the
acceptance both machines begin with. -/
def Obligations.IsWellFormedTestsRanges : Prop :=
  (∀ (who : Role) (F : Frame), F.payload.length ≤ 1400 → decode (.op who (0x23 :: frameWire F)) = .ok (.codecIsWellFormed who F)) ∧
  (∀ (who : Role) (F : Frame) (s : State), (commonOf who s).halted = false →
    exec (.codecIsWellFormed who F) s = .next (emit
      (.result who (.flag (decide (F.seq.toNat ≤ 1 ∧ F.ack.toNat ≤ 1 ∧ F.fin.toNat ≤ 1)))) s)) ∧
  (∀ (wire : List Byte) (F : Frame), parseFrame wire = .ok F → frameWellFormed F = false → acceptableFrame wire = none) ∧
  frameValid ⟨2, 0, 0, 0x00000000B24675CD, []⟩ = true ∧ frameWellFormed ⟨2, 0, 0, 0x00000000B24675CD, []⟩ = false

/-- R157: changing exactly one byte of an encoded frame, its length kept, makes it invalid: at offsets 6 to 13 the transmitted checksum
changes and the recomputed one does not, elsewhere the other way round. -/
def Obligations.SingleByteChangeIsInvalid : Prop :=
  ∀ (q a f : Bool) (payload : List Byte) (k : Nat) (x : Byte), payload.length ≤ 1400 →
    k < (encodeBytes q a f payload).length → (encodeBytes q a f payload)[k]? ≠ some x →
    ∃ F : Frame, parseFrame ((encodeBytes q a f payload).set k x) = .ok F ∧ frameValid F = false ∧
      (6 ≤ k ∧ k < 14 → coveredBytes F = coveredBytes (builtFrame q a f payload) ∧ F.cks ≠ (builtFrame q a f payload).cks) ∧
      (k < 6 ∨ 14 ≤ k → F.cks = (builtFrame q a f payload).cks ∧
        crc32 (coveredBytes F) ≠ crc32 (coveredBytes (builtFrame q a f payload)))

/-! ### Datagrams at the receiver -/

/-- R100, R212, R213, R214, R215 (b), with `RX_DEDUP = 0`: the arrival, at a receiver that is started, of a valid frame of any of the
eight kinds (DATA0, DATA0F, ACK0, ACK0F, DATA1, DATA1F, ACK1, ACK1F, as the frame kind or as RX.RECV of its bytes): the address is
recorded, the payload appended, the ACK sent, and on a final frame the whole buffer delivered and cleared. -/
def Obligations.ReceiverAppendsAcknowledgesDelivers : Prop :=
  ∀ (s : State) (src : Addr) (q a f : Bool) (payload old : List Byte) (i : Instr),
    i ∈ [frameKind q a f .receiver src (rightChecksum q a f payload) payload, .rxRecv (encodeBytes q a f payload) src] →
    payload.length ≤ 1400 → s.receiver.common.initDone = true → s.receiver.common.halted = false →
    s.receiver.rxDedup = false → (∀ m, s.receiver.rxBufMax = some m → s.receiver.rxLen + payload.length ≤ m) →
    s.receiver.rxBuf.readBytes 0 s.receiver.rxLen = some old →
    ∃ buf out inp : Memory, stored s.receiver.rxBuf buf s.receiver.rxLen payload ∧
      stored s.receiver.common.frameOut out 0 (ackBytes q) ∧ holdsExactly inp (encodeBytes q a f payload) ∧
      exec i s = .next
        { s with
          receiver := { s.receiver with
            common := { s.receiver.common with crcAcc := ackChecksum q ^^^ 0xFFFFFFFF, frameOut := out, frameIn := inp }
            rxState := .waitForData
            rxLen := if f then 0 else s.receiver.rxLen + payload.length
            rxPeer := src
            rxPeerValid := true
            rxBuf := buf }
          inFlight := s.inFlight ++ addedCopies .receiver ⟨src, s.receiver.common.portAck⟩ (ackBytes q) s
          outputs := s.outputs ++ [.sent .receiver ⟨src, s.receiver.common.portAck⟩ (ackBytes q)] ++
            (if f then [.delivered (old ++ payload)] else [])
          free := s.free + 1 }

/-- R211, R101, R253, R255: a datagram that is malformed, ill-formed or invalid is discarded by a receiver that is started, as RX.RECV of
its bytes and as a frame kind with a wrong checksum field. -/
def Obligations.ReceiverDiscardsUnacceptable : Prop :=
  ∀ (s : State) (wire : List Byte) (src : Addr) (i : Instr),
    (i = .rxRecv wire src ∨ decode (.datagram .receiver src wire) = .ok i) →
    s.receiver.common.initDone = true → s.receiver.common.halted = false →
    (∀ F, parseFrame wire = .ok F → frameWellFormed F = false ∨ frameValid F = false) →
    exec i s = .next s

/-- R216, with `RX_DEDUP = 1`: a frame that repeats the last accepted bit is acknowledged, and neither appended nor delivered. The model's
readings, which R216 does not state: no capacity test applies to it (log 11), `FRAME_IN` and `FRAME_OUT` keep their bytes (log 17), and
`crc_acc` holds the accumulator of the acknowledgement's checksum (log 32). -/
def Obligations.DuplicateIsAcknowledgedOnly : Prop :=
  ∀ (s : State) (src : Addr) (q a f : Bool) (payload : List Byte) (i : Instr),
    i ∈ [frameKind q a f .receiver src (rightChecksum q a f payload) payload, .rxRecv (encodeBytes q a f payload) src] →
    payload.length ≤ 1400 → s.receiver.common.initDone = true → s.receiver.common.halted = false →
    s.receiver.rxDedup = true → s.receiver.rxLastValid = true → s.receiver.rxLastSeq = q →
    ∃ out inp : Memory, stored s.receiver.common.frameOut out 0 (ackBytes q) ∧ holdsExactly inp (encodeBytes q a f payload) ∧
      exec i s = .next
        { s with
          receiver := { s.receiver with
            common := { s.receiver.common with crcAcc := ackChecksum q ^^^ 0xFFFFFFFF, frameOut := out, frameIn := inp }
            rxPeer := src
            rxPeerValid := true }
          inFlight := s.inFlight ++ addedCopies .receiver ⟨src, s.receiver.common.portAck⟩ (ackBytes q) s
          outputs := s.outputs ++ [.sent .receiver ⟨src, s.receiver.common.portAck⟩ (ackBytes q)]
          free := s.free + 1 }

/-- R216, with `RX_DEDUP = 1`: a frame that does not repeat the last accepted bit is taken as with 0, its bit is noted, and the end of
a cycle forgets it. -/
def Obligations.DedupTracksSequenceBit : Prop :=
  ∀ (s : State) (src : Addr) (q a f : Bool) (payload old : List Byte) (i : Instr),
    i ∈ [frameKind q a f .receiver src (rightChecksum q a f payload) payload, .rxRecv (encodeBytes q a f payload) src] →
    payload.length ≤ 1400 → s.receiver.common.initDone = true → s.receiver.common.halted = false → s.receiver.rxDedup = true →
    (s.receiver.rxLastValid = false ∨ s.receiver.rxLastSeq = !q) →
    (∀ m, s.receiver.rxBufMax = some m → s.receiver.rxLen + payload.length ≤ m) →
    s.receiver.rxBuf.readBytes 0 s.receiver.rxLen = some old →
    ∃ buf out inp : Memory, stored s.receiver.rxBuf buf s.receiver.rxLen payload ∧
      stored s.receiver.common.frameOut out 0 (ackBytes q) ∧ holdsExactly inp (encodeBytes q a f payload) ∧
      exec i s = .next
        { s with
          receiver := { s.receiver with
            common := { s.receiver.common with crcAcc := ackChecksum q ^^^ 0xFFFFFFFF, frameOut := out, frameIn := inp }
            rxState := .waitForData
            rxLen := if f then 0 else s.receiver.rxLen + payload.length
            rxPeer := src
            rxPeerValid := true
            rxLastValid := !f
            rxLastSeq := q
            rxBuf := buf }
          inFlight := s.inFlight ++ addedCopies .receiver ⟨src, s.receiver.common.portAck⟩ (ackBytes q) s
          outputs := s.outputs ++ [.sent .receiver ⟨src, s.receiver.common.portAck⟩ (ackBytes q)] ++
            (if f then [.delivered (old ++ payload)] else [])
          free := s.free + 1 }

/-- R218, R256: with a finite capacity, an accepted frame whose payload does not fit raises BufferOverflow: not appended, not
acknowledged, state unchanged. (That a duplicate, which appends nothing, is exempt is the model's reading, log 11: it is ruled out here.) -/
def Obligations.OverflowLeavesReceiverAlone : Prop :=
  ∀ (s : State) (src : Addr) (q a f : Bool) (payload : List Byte) (m : Nat) (i : Instr),
    i ∈ [frameKind q a f .receiver src (rightChecksum q a f payload) payload, .rxRecv (encodeBytes q a f payload) src] →
    payload.length ≤ 1400 → s.receiver.common.initDone = true → s.receiver.common.halted = false →
    (s.receiver.rxDedup = false ∨ s.receiver.rxLastValid = false ∨ s.receiver.rxLastSeq = !q) →
    s.receiver.rxBufMax = some m → m < s.receiver.rxLen + payload.length →
    exec i s = .next (emit (.error .receiver .bufferOverflow) s)

/-! ### Datagrams at the sender -/

/-- R191, R192, R194: the arrival, at a started sender that awaits the acknowledgement of sequence bit `q`, of a valid ACK frame with
that bit (ACK0, ACK0F, ACK1, ACK1F, as the frame kind or as TX.RECV of its bytes). -/
def Obligations.SenderAcceptsMatchingAck : Prop :=
  ∀ (s : State) (src : Addr) (q f : Bool) (payload : List Byte) (i : Instr),
    i ∈ [frameKind q true f .sender src (rightChecksum q true f payload) payload, .txRecv (encodeBytes q true f payload) src] →
    payload.length ≤ 1400 → s.sender.common.initDone = true → s.sender.common.halted = false →
    s.sender.txState = (if q then .waitForAck1 else .waitForAck0) →
    ∃ inp : Memory, holdsExactly inp (encodeBytes q true f payload) ∧
      exec i s = .next
        { s with
          sender := { s.sender with
            common := { s.sender.common with
              crcAcc := crc32 (prefixBytes q true f ++ payload) ^^^ 0xFFFFFFFF, frameIn := inp }
            tmrArmed := false
            txState := if q then .waitForCall0 else .waitForCall1
            txActive := if s.sender.txSent = s.sender.txLen then false else s.sender.txActive }
          outputs := s.outputs ++ (if s.sender.txSent = s.sender.txLen then [.done] else []) }

/-- R194: a datagram that fails one of the five tests (as TX.RECV of its bytes, or as one of the eight frame kinds: the four data kinds
always fail) is discarded by a sender that takes datagrams: every register unchanged, the timer left running. -/
def Obligations.SenderDiscardsUnmatched : Prop :=
  ∀ (s : State) (wire : List Byte) (src : Addr) (i : Instr),
    (i = .txRecv wire src ∨ decode (.datagram .sender src wire) = .ok i) →
    s.sender.common.initDone = true → s.sender.common.halted = false → txWaiting s.sender.txState = true →
    (∀ F, parseFrame wire = .ok F → frameWellFormed F = false ∨ frameValid F = false ∨ F.ack ≠ 1 ∨
      F.seq.toNat ≠ (txSeq s.sender.txState).toNat) →
    exec i s = .next s

/-- R195: two valid ACK frames with one sequence bit, whatever their END flags, payloads and source addresses, and whether as TX.RECV of
their bytes or as the frame kind (ACK0, ACK0F, ACK1, ACK1F), have the same effect but for the scratch accumulator and `FRAME_IN` (logs 17,
32). That the frame with the expected bit is accepted is `SenderAcceptsMatchingAck`. -/
def Obligations.SenderIgnoresEndPayloadSource : Prop :=
  ∀ (s t : State) (q f f' : Bool) (payload payload' : List Byte) (src src' : Addr) (i i' : Instr),
    i ∈ [frameKind q true f .sender src (rightChecksum q true f payload) payload, .txRecv (encodeBytes q true f payload) src] →
    i' ∈ [frameKind q true f' .sender src' (rightChecksum q true f' payload') payload',
      .txRecv (encodeBytes q true f' payload') src'] →
    payload.length ≤ 1400 → payload'.length ≤ 1400 →
    txWaiting s.sender.txState = true → s.sender.common.initDone = true → s.sender.common.halted = false →
    exec i s = .next t →
    ∃ t' : State, exec i' s = .next t' ∧
      t' = { t with sender := { t.sender with common := { t.sender.common with
        crcAcc := t'.sender.common.crcAcc, frameIn := t'.sender.common.frameIn } } }

/-- R196, R232: a datagram whose destination is not ready (the sender in a `WaitForCall` state, or either instance before CFG.INIT or
halted) stays in flight; the block is unchanged. -/
def Obligations.UnreadyLeavesDatagramInFlight : Prop :=
  (∀ (s : State) (wire : List Byte) (src : Addr) (i : Instr),
    (i = .txRecv wire src ∨ decode (.datagram .sender src wire) = .ok i) →
    (s.sender.common.initDone = false ∨ s.sender.common.halted = true ∨
      s.sender.txState = .waitForCall0 ∨ s.sender.txState = .waitForCall1) →
    exec i s =
      .next { s with inFlight := s.inFlight ++ [⟨⟨s.sender.common.addr, s.sender.common.portAck⟩, src, wire⟩] }) ∧
  ∀ (s : State) (wire : List Byte) (src : Addr) (i : Instr),
    (i = .rxRecv wire src ∨ decode (.datagram .receiver src wire) = .ok i) →
    (s.receiver.common.initDone = false ∨ s.receiver.common.halted = true) →
    exec i s =
      .next { s with inFlight := s.inFlight ++ [⟨⟨s.receiver.common.addr, s.receiver.common.portData⟩, src, wire⟩] }

/-! ### The timer -/

/-- R170, with its label (operand layout: log 3, the model's choice), on a started instance that is not halted (R35, R282): cancel-then-start
in one step; whatever was pending is superseded: the expiry has no transition (a refusal: log 5) unless the delay is 0, which makes it due
at once. -/
def Obligations.TmrStartSupersedes : Prop :=
  ∀ (d : BitVec 32) (s : State), decode (.op .sender (0x30 :: be 4 d.toNat)) = .ok (.tmrStart d) ∧
    (s.sender.common.initDone = true → s.sender.common.halted = false → ∃ t : State,
      exec (.tmrStart d) s = .next t ∧ t = { s with sender := { s.sender with tmrArmed := true, tmrCount := d } } ∧
      (d ≠ 0 → exec .tmrExpire t = .refused (.notEnabled .tmrExpire)) ∧ (d = 0 → expiryEnabled t = true))

/-- R171, on a started instance that is not halted (R35, R282): the expiry is not enabled afterwards (a refusal: log 5); `tmr_count` keeps its
value; a second cancel changes nothing. -/
def Obligations.TmrCancelPreventsExpiry : Prop :=
  ∀ s : State, decode (.op .sender [0x31]) = .ok .tmrCancel ∧
    (s.sender.common.initDone = true → s.sender.common.halted = false → ∃ t : State,
      exec .tmrCancel s = .next t ∧ t = { s with sender := { s.sender with tmrArmed := false } } ∧
      exec .tmrExpire t = .refused (.notEnabled .tmrExpire) ∧ exec .tmrCancel t = .next t)

/-- R172, with its label: one less while armed, not below zero, and nothing else; on an instance that is not halted (R35). -/
def Obligations.TmrTickCountsDown : Prop :=
  ∀ s : State, decode (.op .sender [0x32]) = .ok .tmrTick ∧ (s.sender.common.halted = false → ∃ c : BitVec 32,
    exec .tmrTick s = .next { s with sender := { s.sender with tmrCount := c } } ∧
    c.toNat = if s.sender.tmrArmed = true ∧ 0 < s.sender.tmrCount.toNat then s.sender.tmrCount.toNat - 1
      else s.sender.tmrCount.toNat)

/-- R173: in every state that meets the invariant, the expiry can be performed exactly when the timer is armed and its count is 0. -/
def Obligations.ExpiryExactlyWhenDue : Prop :=
  ∀ s : State, SystemInv s →
    ((∃ t : State, exec .tmrExpire s = .next t) ↔ s.sender.tmrArmed = true ∧ s.sender.tmrCount = 0)

/-- R174, R190, R263: TMR.EXPIRE, when due, on an instance that is not halted (R35), and TX.TIMEOUT, on one that is also started (R282), in a `WaitForAck` state: the counter is rolled back by the last chunk size,
the chunk at the rolled-back offset is sent with the sequence bit in hand, the timer restarted; `tx_state` stays. The premises on the
counters and the buffer hold in every state that meets `SystemInv`. -/
def Obligations.TimeoutResendsChunk : Prop :=
  ∀ (s : State) (i : Instr) (q : Bool) (start n : Nat) (chunk : List Byte),
    s.sender.common.halted = false →
    ((i = .txTimeout ∧ s.sender.common.initDone = true) ∨ (i = .tmrExpire ∧ s.sender.tmrArmed = true ∧ s.sender.tmrCount = 0)) →
    s.sender.txState = (if q then .waitForAck1 else .waitForAck0) →
    s.sender.txSent = start + s.sender.txLast.toNat → start ≤ s.sender.txLen → n = min 1400 (s.sender.txLen - start) →
    s.sender.txBuf.readBytes start n = some chunk →
    ∃ out : Memory,
      stored s.sender.common.frameOut out 0 (encodeBytes q false (decide (start + n = s.sender.txLen)) chunk) ∧
      exec i s = .next
        { s with
          sender := { s.sender with
            common := { s.sender.common with
              crcAcc := crc32 (prefixBytes q false (decide (start + n = s.sender.txLen)) ++ chunk) ^^^ 0xFFFFFFFF
              frameOut := out }
            txSent := start + n
            txLast := BitVec.ofNat 11 n
            tmrCount := s.sender.timeoutMs
            tmrArmed := true }
          inFlight := s.inFlight ++ addedCopies .sender ⟨s.sender.txDest, s.sender.common.portData⟩
            (encodeBytes q false (decide (start + n = s.sender.txLen)) chunk) s
          outputs := s.outputs ++ [.sent .sender ⟨s.sender.txDest, s.sender.common.portData⟩
            (encodeBytes q false (decide (start + n = s.sender.txLen)) chunk)]
          free := s.free + 1 }

/-- R170, R172, R173, R175 (d): `k` ticks after a start with delay `d`, `k <= d`, the count is `d - k`, the timer is still armed, and the
expiry is due exactly when `k = d`. -/
def Obligations.TimerCountsTicks : Prop :=
  ∀ (s : State) (d : BitVec 32) (k : Nat), s.sender.common.initDone = true → s.sender.common.halted = false → k ≤ d.toNat →
    ∃ t : State, andThen (exec (.tmrStart d) s) (tickTimes k) = .next t ∧
      t = { s with sender := { s.sender with tmrArmed := true, tmrCount := d - BitVec.ofNat 32 k } } ∧
      (expiryEnabled t = true ↔ k = d.toNat)

/-! ### The sender -/

/-- R186: an accepted load. The premise `initDone` is R223's. -/
def Obligations.TxLoadStartsTransfer : Prop :=
  ∀ (s : State) (buf : List Byte) (dest : Addr), s.sender.common.initDone = true → s.sender.common.halted = false →
    s.sender.txActive = false →
    ∃ m : Memory, stored s.sender.txBuf m 0 buf ∧
      exec (.txLoad buf dest) s = .next
        { s with
          sender := { s.sender with
            txBuf := m, txLen := buf.length, txSent := 0, txLast := 0, txDest := dest, txState := .waitForCall0, txActive := true }
          outputs := s.outputs ++ [.result .sender .accepted] }

/-- R187: a load while a transfer is active returns `refused` and writes nothing. -/
def Obligations.TxLoadRefusedWhileActive : Prop :=
  ∀ (s : State) (buf : List Byte) (dest : Addr), s.sender.common.initDone = true → s.sender.common.halted = false →
    s.sender.txActive = true → exec (.txLoad buf dest) s = .next { s with outputs := s.outputs ++ [.result .sender .refused] }

/-- R188, R189: TX.SENDPACKET, enabled, sends the next chunk. The premises on the counters and the buffer hold in every state that meets
`SystemInv`. -/
def Obligations.TxSendPacketSendsChunk : Prop :=
  ∀ (s : State) (q : Bool) (n : Nat) (chunk : List Byte), s.sender.common.halted = false → s.sender.txActive = true →
    s.sender.txState = (if q then .waitForCall1 else .waitForCall0) →
    s.sender.txSent ≤ s.sender.txLen → n = min 1400 (s.sender.txLen - s.sender.txSent) →
    s.sender.txBuf.readBytes s.sender.txSent n = some chunk →
    ∃ out : Memory,
      stored s.sender.common.frameOut out 0 (encodeBytes q false (decide (s.sender.txSent + n = s.sender.txLen)) chunk) ∧
      exec .txSendPacket s = .next
        { s with
          sender := { s.sender with
            common := { s.sender.common with
              crcAcc := crc32 (prefixBytes q false (decide (s.sender.txSent + n = s.sender.txLen)) ++ chunk) ^^^ 0xFFFFFFFF
              frameOut := out }
            txSent := s.sender.txSent + n
            txLast := BitVec.ofNat 11 n
            tmrCount := s.sender.timeoutMs
            tmrArmed := true
            txState := if q then .waitForAck1 else .waitForAck0 }
          inFlight := s.inFlight ++ addedCopies .sender ⟨s.sender.txDest, s.sender.common.portData⟩
            (encodeBytes q false (decide (s.sender.txSent + n = s.sender.txLen)) chunk) s
          outputs := s.outputs ++ [.sent .sender ⟨s.sender.txDest, s.sender.common.portData⟩
            (encodeBytes q false (decide (s.sender.txSent + n = s.sender.txLen)) chunk)]
          free := s.free + 1 }

/-- R191, R192, on a started instance (R35, R282): the acknowledgement of the chunk in hand; `done` when it was the final one. -/
def Obligations.TxPacketReceivedAdvances : Prop :=
  ∀ (s : State) (q : Bool), s.sender.common.initDone = true → s.sender.common.halted = false →
    s.sender.txState = (if q then .waitForAck1 else .waitForAck0) →
    exec .txPacketReceived s = .next
      { s with
        sender := { s.sender with
          tmrArmed := false
          txState := if q then .waitForCall0 else .waitForCall1
          txActive := if s.sender.txSent = s.sender.txLen then false else s.sender.txActive }
        outputs := s.outputs ++ (if s.sender.txSent = s.sender.txLen then [.done] else []) }

/-- R193: the pairs of state and message the table does not list have no effect, on a sender that is started ("Only then do the rules of
`43_sender_fsm.md` ... hold", R282). -/
def Obligations.UnlistedPairsHaveNoEffect : Prop :=
  ∀ s : State, s.sender.common.initDone = true → s.sender.common.halted = false →
    (s.sender.txState = .waitForAck0 ∨ s.sender.txState = .waitForAck1 → exec .txSendPacket s = .next s) ∧
    (s.sender.txState = .waitForCall0 ∨ s.sender.txState = .waitForCall1 →
      exec .txTimeout s = .next s ∧ exec .txPacketReceived s = .next s)

/-- R190: however often the timeout repeats, the retransmission after a TX.SENDPACKET is the same datagram, and the counters end as
they were; for every checksum (R10; at `hardware`, `execWith` is `exec`: NextStateFunction says so). -/
def Obligations.RetransmissionRepeatsChunk : Prop :=
  ∀ (k : Config.Parameters) (s t : State), s.sender.common.initDone = true → txWaiting s.sender.txState = false →
    execWith k .txSendPacket s = .next t →
    ∃ o : Output, t.outputs = s.outputs ++ [o] ∧
      ∀ n : Nat, ∃ u : State, (fun x => andThen x (execWith k .txTimeout))^[n] (.next t) = .next u ∧
        u.outputs = t.outputs ++ List.replicate n o ∧ u.sender.txSent = t.sender.txSent ∧ u.sender.txLast = t.sender.txLast ∧
        u.sender.txState = t.sender.txState ∧ u.sender.tmrArmed = true ∧ u.sender.tmrCount = t.sender.timeoutMs

/-- R188, R198: a loaded buffer of any length is sent in `max(1, ceil(len / 1400))` chunks, in order, with alternating sequence bits and only
the last one final, and then the transfer is done; for every checksum (R10). -/
def Obligations.TransferSendsEveryChunk : Prop :=
  ∀ (k : Config.Parameters) (s t : State) (buf : List Byte) (dest : Addr), s.sender.common.initDone = true →
    s.sender.common.halted = false → s.sender.txActive = false → execWith k (.txLoad buf dest) s = .next t →
    ∃ u : State, sendRounds k (chunkCount buf.length) t = .next u ∧
      u.outputs = t.outputs ++ (List.range (chunkCount buf.length)).map (chunkOutput k ⟨dest, s.sender.common.portData⟩ buf) ++
        [.done] ∧
      u.sender.txActive = false ∧ u.sender.tmrArmed = false ∧ u.sender.txSent = buf.length

/-- R198, R219, R272: end to end over a transport that loses, alters and duplicates nothing, with either value of `RX_DEDUP`: after
`max(1, ceil(len / 1400))` rounds the receiver's host has been handed the loaded buffer, once, unchanged, the sender's host has been told
`done`, and the run is over. -/
def Obligations.CleanTransferDeliversBuffer : Prop :=
  ∀ (s t : State) (buf : List Byte) (p q : Port), p ≠ q →
    s.sender.common.initDone = true → s.sender.common.halted = false → s.sender.txActive = false →
    s.sender.common.portData = some p → s.sender.common.portAck = some q →
    s.receiver.common.initDone = true → s.receiver.common.halted = false → s.receiver.rxLen = 0 →
    s.receiver.common.portData = some p → s.receiver.common.portAck = some q →
    (s.receiver.rxDedup = true → s.receiver.rxLastValid = false) → (∀ m, s.receiver.rxBufMax = some m → buf.length ≤ m) →
    s.senderSide = ⟨⟨0, 0, 0⟩, true, true⟩ → s.receiverSide = ⟨⟨0, 0, 0⟩, true, true⟩ → s.inFlight = [] →
    exec (.txLoad buf s.receiver.common.addr) s = .next t →
    ∃ u : State, cleanRounds (chunkCount buf.length) t = .next u ∧
      (u.outputs.drop t.outputs.length).filter isDelivery = [.delivered buf] ∧ u.outputs.getLast? = some .done ∧
      u.receiver.rxPeer = s.sender.common.addr ∧ runOver u = true

/-! ### Reset, start-up, guards -/

/-- R280, R281: RESET of either instance. The registers take R43's values, the address the spec leaves unspecified is left open (log 8),
the other instance, the transport and the environment keep theirs. That nothing is readable in the buffers afterwards is the model's
rendering of "unspecified" (log 14). -/
def Obligations.ResetRestoresOneInstance : Prop :=
  (∀ s : State, ∃ n : Sender, exec (.reset .sender) s = .next { s with sender := n, free := s.free + 1 } ∧
    n.txState = .waitForCall0 ∧ n.txActive = false ∧ n.txLen = 0 ∧ n.txSent = 0 ∧ n.txLast = 0 ∧ n.tmrArmed = false ∧
    n.tmrCount = 0 ∧ n.common.halted = false ∧ n.common.crcAcc = 0xFFFFFFFF ∧ n.timeoutMs = 300 ∧ n.common.portData = none ∧
    n.common.portAck = none ∧ n.common.initDone = false ∧ n.common.addr = s.sender.common.addr ∧
    ∀ a, n.txBuf.read a = none ∧ n.common.frameOut.read a = none ∧ n.common.frameIn.read a = none) ∧
  ∀ s : State, ∃ n : Receiver, exec (.reset .receiver) s = .next { s with receiver := n, free := s.free + 1 } ∧
    n.rxState = .waitForData ∧ n.rxLen = 0 ∧ n.rxPeerValid = false ∧ n.rxLastValid = false ∧ n.rxLastSeq = false ∧
    n.common.halted = false ∧ n.common.crcAcc = 0xFFFFFFFF ∧ n.rxDedup = false ∧ n.common.portData = none ∧
    n.common.portAck = none ∧ n.common.initDone = false ∧ n.common.addr = s.receiver.common.addr ∧
    n.rxBufMax = s.receiver.rxBufMax ∧
    ∀ a, n.rxBuf.read a = none ∧ n.common.frameOut.read a = none ∧ n.common.frameIn.read a = none

/-- R43, for every register whose value it states. -/
def Obligations.PowerOnStateAsListed : Prop :=
  State.reset.sender.common.crcAcc = 0xFFFFFFFF ∧ State.reset.receiver.common.crcAcc = 0xFFFFFFFF ∧
  txCode State.reset.sender.txState = 0 ∧ State.reset.sender.txActive = false ∧ State.reset.sender.txLen = 0 ∧
  State.reset.sender.txSent = 0 ∧ State.reset.sender.txLast = 0 ∧ State.reset.sender.tmrArmed = false ∧
  State.reset.sender.tmrCount = 0 ∧ State.reset.receiver.rxState = .waitForData ∧ State.reset.receiver.rxLen = 0 ∧
  State.reset.receiver.rxPeerValid = false ∧ State.reset.receiver.rxLastValid = false ∧
  State.reset.receiver.rxLastSeq = false ∧ State.reset.sender.common.halted = false ∧
  State.reset.receiver.common.halted = false ∧ State.reset.sender.timeoutMs = 300 ∧ State.reset.receiver.rxDedup = false

/-- R283: CFG.INIT freezes the configuration; a bind failure halts the instance and is a TransportError; without both ports, a second time,
or on a halted instance (R35), it is not enabled (a refusal: log 5). -/
def Obligations.CfgInitFreezesOrHalts : Prop :=
  ∀ (who : Role) (s : State),
    ((commonOf who s).portData.isSome = true → (commonOf who s).portAck.isSome = true → (commonOf who s).initDone = false →
      (commonOf who s).halted = false →
      exec (.cfgInit who true) s = .next (mapCommon who (fun c => { c with initDone := true }) s) ∧
      exec (.cfgInit who false) s = .next (emit (.error who .transportError)
        (mapCommon who (fun c => { c with initDone := true, halted := true }) s))) ∧
    ((commonOf who s).portData = none ∨ (commonOf who s).portAck = none ∨ (commonOf who s).initDone = true ∨
        (commonOf who s).halted = true →
      ∀ ok, exec (.cfgInit who ok) s = .refused (.notEnabled .cfgInit))

/-- R36, R223, R243, U26, over steps: the host's configuration writes land before CFG.INIT and have no transition after it. -/
def Obligations.ConfigurationWrites : Prop :=
  ∀ (s : State) (who : Role) (p : Port) (v : BitVec 32) (d : Bool) (rest : List Event), s.unitCall = none →
    ((commonOf who s).initDone = false →
      (s.agenda = .configure (.portData who p) :: rest →
        step s = .next (mapCommon who (fun c => { c with portData := some p }) { s with agenda := rest })) ∧
      (s.agenda = .configure (.portAck who p) :: rest →
        step s = .next (mapCommon who (fun c => { c with portAck := some p }) { s with agenda := rest }))) ∧
    ((commonOf who s).initDone = true →
      (s.agenda = .configure (.portData who p) :: rest ∨ s.agenda = .configure (.portAck who p) :: rest) →
        step s = .refused (.notEnabled .configure)) ∧
    (s.agenda = .configure (.timeoutMs v) :: rest →
      step s = if s.sender.common.initDone then .refused (.notEnabled .configure)
        else .next { s with sender := { s.sender with timeoutMs := v }, agenda := rest }) ∧
    (s.agenda = .configure (.rxDedup d) :: rest →
      step s = if s.receiver.common.initDone then .refused (.notEnabled .configure)
        else .next { s with receiver := { s.receiver with rxDedup := d }, agenda := rest })

/-- R177, R223, R269, R282, U26: an operation whose guard does not hold has no transition (that the model then answers a refusal with a name
is log 5's). Over steps: no event starts TMR.START, TMR.CANCEL, TX.TIMEOUT or TX.PACKETRECEIVED, which are "never by themselves", and no
datagram arrives that is not in flight for its instance. -/
def Obligations.FailedGuardsHaveNoTransition : Prop :=
  ∀ s : State,
    (s.sender.common.initDone = false ∨ s.sender.common.halted = true →
      ∀ buf dest, exec (.txLoad buf dest) s = .refused (.notEnabled .txLoad)) ∧
    (s.sender.txState = .waitForCall0 ∨ s.sender.txState = .waitForCall1 →
      s.sender.txActive = false → exec .txSendPacket s = .refused (.notEnabled .txSendPacket)) ∧
    (s.sender.common.halted = false → s.sender.tmrArmed = false ∨ s.sender.tmrCount ≠ 0 →
      exec .tmrExpire s = .refused (.notEnabled .tmrExpire)) ∧
    (s.sender.common.initDone = false → s.sender.common.halted = false → ∀ i : Instr,
      (∃ d, i = .tmrStart d) ∨ i = .tmrCancel ∨ i = .txTimeout ∨ i = .txPacketReceived →
      exec i s = .refused (.notEnabled .notStarted)) ∧
    (∀ (r : Request) (i : Instr) (rest : List Event), s.unitCall = none → s.agenda = .request r :: rest → decode r = .ok i →
      (∃ d, i = .tmrStart d) ∨ i = .tmrCancel ∨ i = .txTimeout ∨ i = .txPacketReceived →
      step s = .refused (.notEnabled .neverByItself)) ∧
    (∀ (r : Request) (i : Instr) (a : Arrival) (rest : List Event), s.unitCall = none → s.agenda = .request r :: rest →
      decode r = .ok i → arrivalOfInstr i = some a → (∀ d ∈ s.inFlight, d ≠ ⟨ownEndpoint a.dest s, a.src, a.wire⟩) →
      step s = .refused (.notEnabled .noDatagram))

/-- R35: `halted` is cleared by nothing but RESET of that instance (`unitCall` is the model's own field, none in every state of a run: log 6). -/
def Obligations.HaltedUntilReset : Prop :=
  ∀ (who : Role) (s t : State), s.unitCall = none → (commonOf who s).halted = true → step s = .next t →
    (commonOf who t).halted = true ∨ ∃ r rest, s.agenda = .request r :: rest ∧ decode r = .ok (.reset who)

/-- R35, R254 (a), R283, D21, U25: on a halted instance no operation but RESET is enabled. Each of the others is refused (log 5), TMR.TICK among them (log 22), and an arriving datagram stays in flight (R232); so nothing
but RESET writes any of the instance's state. In a state that meets the invariant a halted sender has no transfer and its timer is not
armed. -/
def Obligations.HaltedInstanceDoesNothing : Prop :=
  (∀ (who : Role) (s : State), (commonOf who s).halted = true →
    (∀ i : Instr, (i = .crcInit who ∨ (∃ b, i = .crcUpdate who b) ∨ i = .crcRead who ∨ (∃ bytes, i = .crcCompute who bytes) ∨
        (∃ q a f payload, i = .codecEncode who q a f payload) ∨ (∃ wire, i = .codecDecode who wire) ∨
        (∃ F, i = .codecIsValid who F) ∨ (∃ F, i = .codecIsWellFormed who F)) → exec i s = .refused (.notEnabled .halted)) ∧
    (∀ ok, exec (.cfgInit who ok) s = .refused (.notEnabled .cfgInit))) ∧
  (∀ s : State, s.sender.common.halted = true →
    (∀ i : Instr, ((∃ d, i = .tmrStart d) ∨ i = .tmrCancel ∨ i = .tmrTick ∨ i = .tmrExpire ∨ i = .txTimeout ∨
      i = .txPacketReceived) → exec i s = .refused (.notEnabled .halted)) ∧
    (∀ buf dest, exec (.txLoad buf dest) s = .refused (.notEnabled .txLoad)) ∧
    exec .txSendPacket s = .refused (.notEnabled .txSendPacket) ∧
    sendEnabled s = false ∧ expiryEnabled s = false ∧ quiescent s.sender = true ∧
    (SystemInv s → s.sender.txActive = false ∧ s.sender.tmrArmed = false) ∧
    ∀ (i : Instr) (t : State), i ≠ .reset .sender → exec i s = .next t → t.sender = s.sender) ∧
  ∀ (s : State) (i : Instr) (t : State), s.receiver.common.halted = true → i ≠ .reset .receiver → exec i s = .next t →
    t.receiver = s.receiver

/-! ### The whole machine -/

/-- R42, R43, R177, R218, R223, R224, logs 6 and 14: every step keeps the invariant, from every state that meets it. -/
def Obligations.StepKeepsSystemInv : Prop :=
  ∀ s t : State, SystemInv s → step s = .next t → SystemInv t

/-- R42, R43: the state after power-on meets it. -/
def Obligations.PowerOnMeetsSystemInv : Prop := SystemInv State.reset

/-- R60, log 14: every step keeps every space in canonical form, whatever is scheduled. -/
def Obligations.StepKeepsMemoriesCanonical : Prop :=
  ∀ s t : State, MemoriesCanonical s → step s = .next t → MemoriesCanonical t

/-- R70, R222, R223, logs 2, 4 and 6: a step performs the instruction the next request decodes to, on the state without that event; an
arrival takes its datagram out of flight (a request that is no arrival is of an operation an agent starts; FailedGuards has the others); an
operation that a unit performs as a step of another comes first; and a table row's word that decodes is what the next step decodes and
performs. -/
def Obligations.StepRunsDecodedInstruction : Prop :=
  (∀ (s : State) (r : Request) (i : Instr) (rest : List Event), s.unitCall = none → s.agenda = .request r :: rest →
    decode r = .ok i → startable i = true → arrivalOfInstr i = none → step s = exec i { s with agenda := rest }) ∧
  (∀ (s : State) (r : Request) (i : Instr) (a : Arrival) (rest : List Event) (p : Port), s.unitCall = none →
    s.agenda = .request r :: rest → decode r = .ok i → arrivalOfInstr i = some a →
    (ownEndpoint a.dest s).port = some p → ⟨ownEndpoint a.dest s, a.src, a.wire⟩ ∈ s.inFlight → (sideOf a.dest s).inboundUp = true →
    step s = exec i { s with agenda := rest, inFlight := s.inFlight.erase ⟨ownEndpoint a.dest s, a.src, a.wire⟩ }) ∧
  (∀ (s : State) (r : Request) (i : Instr), s.unitCall = some r → decode r = .ok i → step s = exec i { s with unitCall := none }) ∧
  ∀ (s : State) (nbits w : Nat) (i : Instr), decodeTableWord nbits w = some i →
    step (s.withFetchWord nbits w) = exec i { meetGuard i s with unitCall := none }

/-- R173, R189, R225: with no event to come, the spontaneous operation that is enabled is performed, and otherwise the machine rests: that
the machine then waits for an agent, with no time passing, is log 26's. -/
def Obligations.StepAtRest : Prop :=
  ∀ s : State, s.unitCall = none → s.agenda = [] →
    (s.sender.common.halted = false → s.sender.txActive = true →
      (s.sender.txState = .waitForCall0 ∨ s.sender.txState = .waitForCall1) → step s = exec .txSendPacket s) ∧
    (s.sender.common.halted = false → (s.sender.txState = .waitForAck0 ∨ s.sender.txState = .waitForAck1) →
      s.sender.tmrArmed = true → s.sender.tmrCount = 0 → step s = exec .tmrExpire s) ∧
    (sendEnabled s = false → expiryEnabled s = false → step s = .next s)

/-- R231, R232: the delivery of a datagram in flight addressed to the sender's endpoint is TX.RECV of its bytes and source, with the datagram
removed (one that matches both endpoints goes to the sender: log 9, the model's choice); of one addressed to the receiver's endpoint and not
to the sender's, RX.RECV. R254 (c): when the inbound socket of the side fails, nothing is started and the datagram stays in flight (log 20);
the outbound socket does not matter here (R217: an acknowledgement whose `send` fails does not undo the operation).
R232: "Datagrams to any other destination are never delivered" (a refusal: log 5). -/
def Obligations.DeliveryStartsReceive : Prop :=
  ∀ (s : State) (k : Nat) (rest : List Event) (d : Datagram) (p : Port), s.unitCall = none → s.agenda = .deliver k :: rest →
    s.inFlight[k]? = some d →
    (d.dst = ⟨s.sender.common.addr, some p⟩ → s.sender.common.portAck = some p → s.senderSide.inboundUp = true →
      step s = exec (.txRecv d.wire d.src) { s with agenda := rest, inFlight := s.inFlight.eraseIdx k }) ∧
    (d.dst = ⟨s.receiver.common.addr, some p⟩ → s.receiver.common.portData = some p →
      (s.sender.common.addr ≠ s.receiver.common.addr ∨ s.sender.common.portAck ≠ some p) → s.receiverSide.inboundUp = true →
      step s = exec (.rxRecv d.wire d.src) { s with agenda := rest, inFlight := s.inFlight.eraseIdx k }) ∧
    (d.dst = ⟨s.sender.common.addr, some p⟩ → s.sender.common.portAck = some p → s.senderSide.inboundUp = false →
      step s = .next { s with agenda := rest }) ∧
    (d.dst = ⟨s.receiver.common.addr, some p⟩ → s.receiver.common.portData = some p →
      (s.sender.common.addr ≠ s.receiver.common.addr ∨ s.sender.common.portAck ≠ some p) → s.receiverSide.inboundUp = false →
      step s = .next { s with agenda := rest }) ∧
    (d.dst.port = none ∨
      (d.dst ≠ ⟨s.sender.common.addr, s.sender.common.portAck⟩ ∧ d.dst ≠ ⟨s.receiver.common.addr, s.receiver.common.portData⟩) →
      step s = .refused (.notEnabled .transport))

/-- R101, over steps: a datagram in flight that is malformed or ill-formed, or whose checksum field is wrong, leaves a ready instance
unchanged; it is no longer in flight. That `crc_acc` and `FRAME_IN` too are unchanged is log 16's, and that the step does not refuse a
datagram outside the eight kinds is log 30's. -/
def Obligations.BadDatagramsAreDiscarded : Prop :=
  ∀ (s : State) (dest : Role) (src : Addr) (wire : List Byte) (rest : List Event) (p : Port), s.unitCall = none →
    s.agenda = .request (.datagram dest src wire) :: rest →
    (ownEndpoint dest s).port = some p → ⟨ownEndpoint dest s, src, wire⟩ ∈ s.inFlight → (sideOf dest s).inboundUp = true →
    (commonOf dest s).initDone = true → (commonOf dest s).halted = false → (dest = .sender → txWaiting s.sender.txState = true) →
    (wire.length < 14 ∨ 1414 < wire.length ∨
      ∃ F, parseFrame wire = .ok F ∧ (2 ≤ F.seq.toNat ∨ 2 ≤ F.ack.toNat ∨ 2 ≤ F.fin.toNat ∨ F.cks.extractLsb' 32 32 ≠ 0 ∨
        F.cks.setWidth 32 ≠ crc32 (coveredBytes F))) →
    step s = .next { s with agenda := rest, inFlight := s.inFlight.erase ⟨ownEndpoint dest s, src, wire⟩ }

/-- R221: the next-state function of `tx_state`, for every instruction and every checksum (R10), that of this hardware among them. -/
def Obligations.NextStateFunction : Prop :=
  (∀ (i : Instr) (s : State), execWith hardware i s = exec i s) ∧
  ∀ (k : Config.Parameters) (i : Instr) (s t : State), execWith k i s = .next t →
    (i = .txSendPacket → txWaiting s.sender.txState = false → txCode t.sender.txState = txCode s.sender.txState + 1) ∧
    (i = .txPacketReceived → txWaiting s.sender.txState = true → txCode t.sender.txState = txCode s.sender.txState + 1) ∧
    (arrivesAtSender i = true → txCode t.sender.txState = txCode s.sender.txState ∨
      (txWaiting s.sender.txState = true ∧ txCode t.sender.txState = txCode s.sender.txState + 1)) ∧
    ((∃ buf dest, i = .txLoad buf dest) → s.sender.txActive = false → txCode t.sender.txState = 0) ∧
    (i = .reset .sender → txCode t.sender.txState = 0) ∧
    (i ≠ .txSendPacket → i ≠ .txPacketReceived → arrivesAtSender i = false → (∀ buf dest, i ≠ .txLoad buf dest) →
      i ≠ .reset .sender → t.sender.txState = s.sender.txState)

/-- R62: from a load until `tx_active` returns to 0 no step writes a byte of the transfer buffer, nor its length or destination. -/
def Obligations.TransferBufferUnchangedWhileActive : Prop :=
  ∀ s t : State, s.sender.txActive = true → step s = .next t → t.sender.txActive = true →
    (∀ a, t.sender.txBuf.read a = s.sender.txBuf.read a) ∧ t.sender.txLen = s.sender.txLen ∧ t.sender.txDest = s.sender.txDest

/-- R36, R76: the configuration record is constant from CFG.INIT to the next reset. -/
def Obligations.ConfigurationFrozenAfterInit : Prop :=
  ∀ s t : State, step s = .next t →
    (s.sender.common.initDone = true → t.sender.common.initDone = true →
      t.sender.timeoutMs = s.sender.timeoutMs ∧ t.sender.common.portData = s.sender.common.portData ∧
      t.sender.common.portAck = s.sender.common.portAck) ∧
    (s.receiver.common.initDone = true → t.receiver.common.initDone = true →
      t.receiver.rxDedup = s.receiver.rxDedup ∧ t.receiver.common.portData = s.receiver.common.portData ∧
      t.receiver.common.portAck = s.receiver.common.portAck)

/-- R20: the instances share no state. An operation of one leaves the other's registers and buffers alone, and what it does to its own
does not depend on them; for every checksum (R10; at `hardware`, `execWith` is `exec`: NextStateFunction says so). -/
def Obligations.InstancesShareNoState : Prop :=
  (∀ (k : Config.Parameters) (i : Instr) (s t : State), execWith k i s = .next t →
    (performer i = .sender → t.receiver = s.receiver ∧ t.receiverSide = s.receiverSide) ∧
    (performer i = .receiver → t.sender = s.sender ∧ t.senderSide = s.senderSide)) ∧
  ∀ (k : Config.Parameters) (i : Instr) (s s' t : State), s.free = s'.free → execWith k i s = .next t →
    (performer i = .sender → s.sender = s'.sender → s.senderSide = s'.senderSide →
      ∃ t', execWith k i s' = .next t' ∧ t'.sender = t.sender) ∧
    (performer i = .receiver → s.receiver = s'.receiver → s.receiverSide = s'.receiverSide →
      ∃ t', execWith k i s' = .next t' ∧ t'.receiver = t.receiver)

/-- R234 to R240: what a fault injector lets into the transport, for every draw: with all percentages 0 the one unmodified datagram; with
only bitError at 100 one datagram with one byte set to zero; with only loss at 100 nothing; with only duplicate at 100 two equal ones; and in
every configuration at most one fault's action. R197, R217, R254 (b), over steps: a `send` on an outbound socket that fails (log 20) adds no
datagram; the acknowledgement of an accepted frame is then lost, and the append stands. -/
def Obligations.InjectorSendCounts : Prop :=
  (∀ (d : Config.Draw) (wire : List Byte),
    injectedCopies ⟨0, 0, 0⟩ d wire = [wire] ∧
    (wire ≠ [] → ∃ k, k < wire.length ∧ injectedCopies ⟨100, 0, 0⟩ d wire = [wire.set k 0]) ∧
    injectedCopies ⟨0, 100, 0⟩ d wire = [] ∧
    injectedCopies ⟨0, 0, 100⟩ d wire = [wire, wire] ∧
    ∀ inj : Injector, injectedCopies inj d wire = [wire] ∨ (∃ k, injectedCopies inj d wire = [wire.set k 0]) ∨
      injectedCopies inj d wire = [] ∨ injectedCopies inj d wire = [wire, wire]) ∧
  ∀ (s : State) (rest : List Event) (src : Addr) (p : Port) (q a : Bool) (payload : List Byte), s.unitCall = none →
    s.agenda = .request (.datagram .receiver src (encodeBytes q a false payload)) :: rest → payload.length ≤ 1400 →
    s.receiver.common.initDone = true → s.receiver.common.halted = false → s.receiver.rxDedup = false → s.receiver.rxBufMax = none →
    s.receiver.common.portData = some p → ⟨⟨s.receiver.common.addr, some p⟩, src, encodeBytes q a false payload⟩ ∈ s.inFlight →
    s.receiverSide.inboundUp = true → s.receiverSide.outboundUp = false →
    ∃ t : State, step s = .next t ∧
      t.inFlight = s.inFlight.erase ⟨⟨s.receiver.common.addr, some p⟩, src, encodeBytes q a false payload⟩ ∧
      t.outputs = s.outputs ++ [.sent .receiver ⟨src, s.receiver.common.portAck⟩ (ackBytes q)] ∧
      t.receiver.rxLen = s.receiver.rxLen + payload.length ∧
      stored s.receiver.rxBuf t.receiver.rxBuf s.receiver.rxLen payload

/-- R231, R252, R254, R293, over steps: the environment's events. An injector is constructed "before any traffic flows", read as before its
side's CFG.INIT (log 35; later there is no transition: log 5); which value is recorded when several percentages are out of range is left
open here (log 33), and that the side's injector is unchanged by a failed construction is the model's choice (log 34). -/
def Obligations.EnvironmentEvents : Prop :=
  ∀ (s : State) (rest : List Event) (k : Nat) (d e : Datagram) (wire : List Byte) (who : Role) (up : Bool) (x y z : Int), s.unitCall = none →
    (s.inFlight[k]? = some d →
      (s.agenda = .transport (.lose k) :: rest → step s = .next { s with agenda := rest, inFlight := s.inFlight.eraseIdx k }) ∧
      (s.agenda = .transport (.duplicate k) :: rest → step s = .next { s with agenda := rest, inFlight := s.inFlight ++ [d] }) ∧
      (s.agenda = .transport (.alter k wire) :: rest →
        step s = .next { s with agenda := rest, inFlight := s.inFlight.set k { d with wire := wire } })) ∧
    (s.agenda = .transport (.inject e) :: rest → step s = .next { s with agenda := rest, inFlight := s.inFlight ++ [e] }) ∧
    (s.agenda = .link who .outbound up :: rest →
      step s = .next (mapSide who (fun v => { v with outboundUp := up }) { s with agenda := rest })) ∧
    (s.agenda = .link who .inbound up :: rest →
      step s = .next (mapSide who (fun v => { v with inboundUp := up }) { s with agenda := rest })) ∧
    (s.agenda = .construct who x y z :: rest → (commonOf who s).initDone = true → step s = .refused (.notEnabled .construct)) ∧
    (s.agenda = .construct who x y z :: rest → (commonOf who s).initDone = false →
      (0 ≤ x ∧ x ≤ 100 ∧ 0 ≤ y ∧ y ≤ 100 ∧ 0 ≤ z ∧ z ≤ 100 →
        step s = .next (mapSide who (fun v => { v with injector := ⟨x.toNat, y.toNat, z.toNat⟩ }) { s with agenda := rest })) ∧
      (¬(0 ≤ x ∧ x ≤ 100 ∧ 0 ≤ y ∧ y ≤ 100 ∧ 0 ≤ z ∧ z ≤ 100) →
        ∃ v, (v = x ∨ v = y ∨ v = z) ∧ (v < 0 ∨ 100 < v) ∧
          step s = .next (emit (.error who (.invalidConfiguration v)) { s with agenda := rest })))
end

