-- ==== Sys2Proof/Laws/Codec.lean ====
section
/-! SUPPORT. The wire frame: big-endian integers and their inverse (R14, R63), and that the structural parse and the wire bytes of a
frame record are inverse to each other (R90, R91, R152). -/

namespace Sys2Proof.Machine

@[simp] theorem be_length (n v : Nat) : (be n v).length = n := by
  induction n with
  | zero => rfl
  | succ n ih => simp [be, ih]

/-- R14: serialising reads only the value modulo `256 ^ n`. -/
theorem be_mod (n v : Nat) : be n (v % 256 ^ n) = be n v := by
  induction n generalizing v with
  | zero => rfl
  | succ n ih =>
    have h1 : BitVec.ofNat 8 (v % 256 ^ (n + 1) / 256 ^ n) = BitVec.ofNat 8 (v / 256 ^ n) := by
      apply BitVec.eq_of_toNat_eq
      rw [BitVec.toNat_ofNat, BitVec.toNat_ofNat, pow_succ, Nat.mod_mul_right_div_self, Nat.mod_mod_of_dvd _ (by norm_num)]
    have h2 : be n (v % 256 ^ (n + 1)) = be n v := by
      rw [← ih (v % 256 ^ (n + 1)), ← ih v, Nat.mod_mod_of_dvd _ (pow_dvd_pow 256 (Nat.le_succ n))]
    simp only [be, h1, h2]

theorem fromBe_lt (bs : List Byte) : fromBe bs < 256 ^ bs.length := by
  induction bs with
  | nil => simp [fromBe]
  | cons b bs ih =>
    have hb : b.toNat ≤ 255 := Nat.lt_succ_iff.1 b.isLt
    calc fromBe (b :: bs) = b.toNat * 256 ^ bs.length + fromBe bs := rfl
      _ < 255 * 256 ^ bs.length + 256 ^ bs.length := Nat.add_lt_add_of_le_of_lt (Nat.mul_le_mul_right _ hb) ih
      _ = 256 ^ (b :: bs).length := by rw [List.length_cons, pow_succ]; ring

/-- R14: reading back what was serialised. -/
theorem fromBe_be (n v : Nat) (h : v < 256 ^ n) : fromBe (be n v) = v := by
  induction n generalizing v with
  | zero => simp at h; simp [be, fromBe, h]
  | succ n ih =>
    have hd : v / 256 ^ n < 256 := Nat.div_lt_of_lt_mul (by rwa [← pow_succ])
    have hm : fromBe (be n v) = v % 256 ^ n := by
      rw [← be_mod]; exact ih _ (Nat.mod_lt _ (by positivity))
    simp only [be, fromBe, be_length, hm, BitVec.toNat_ofNat]
    rw [Nat.mod_eq_of_lt (by simpa using hd), Nat.mul_comm]
    exact Nat.div_add_mod v (256 ^ n)

/-- R14: serialising what was read. -/
theorem be_fromBe (bs : List Byte) : be bs.length (fromBe bs) = bs := by
  induction bs with
  | nil => rfl
  | cons b bs ih =>
    have hlt := fromBe_lt bs
    have hpos : 0 < 256 ^ bs.length := by positivity
    have h1 : (b.toNat * 256 ^ bs.length + fromBe bs) / 256 ^ bs.length = b.toNat := by
      rw [Nat.mul_comm, Nat.mul_add_div hpos, Nat.div_eq_of_lt hlt, Nat.add_zero]
    have h2 : be bs.length (b.toNat * 256 ^ bs.length + fromBe bs) = bs := by
      rw [← be_mod, Nat.mul_comm, Nat.mul_add_mod, Nat.mod_eq_of_lt hlt, ih]
    simp only [fromBe, List.length_cons, be, h1, h2, BitVec.ofNat_toNat, BitVec.setWidth_eq]

/-- Two sequences of one length with one big-endian value are the same. -/
theorem eq_of_fromBe_eq {a b : List Byte} (hl : a.length = b.length) (h : fromBe a = fromBe b) : a = b := by
  rw [← be_fromBe a, ← be_fromBe b, hl, h]

@[simp] theorem headerBytes_length (seq : BitVec 32) (ack fin : Byte) : (headerBytes seq ack fin).length = 6 := by
  simp [headerBytes]

theorem frameWire_length (f : Frame) : (frameWire f).length = 14 + f.payload.length := by
  simp only [frameWire, frameHeader, List.length_append, headerBytes_length, be_length]

/-- The wire bytes, byte by byte in front of the payload. -/
theorem frameWire_eq (f : Frame) :
    frameWire f = be 4 f.seq.toNat ++ (f.ack :: f.fin :: (be 8 f.cks.toNat ++ f.payload)) := by
  simp [frameWire, frameHeader, headerBytes]

/-- R152: the parse of a frame record's wire bytes gives the record back. -/
theorem parseFrame_frameWire (f : Frame) (h : f.payload.length ≤ Config.packetSize) : parseFrame (frameWire f) = .ok f := by
  have hl := frameWire_length f
  have hs : fromBe (be 4 f.seq.toNat) = f.seq.toNat := fromBe_be 4 _ (by simpa using f.seq.isLt)
  have hc : fromBe (be 8 f.cks.toNat) = f.cks.toNat := fromBe_be 8 _ (by simpa using f.cks.isLt)
  have hcut : be 8 f.cks.toNat = (be 8 f.cks.toNat ++ f.payload).take 8 := by
    rw [List.take_append_of_le_length (by simp), List.take_of_length_le (by simp)]
  have h4 : (be 4 f.seq.toNat).length = 4 := be_length 4 _
  simp only [Config.packetSize] at h
  unfold parseFrame
  rw [if_neg (by rw [hl]; simp), if_neg (by rw [hl]; simp only [Config.maxFrame]; omega)]
  rw [frameWire_eq]
  generalize be 4 f.seq.toNat = s4 at *
  obtain ⟨b0, b1, b2, b3, rfl⟩ : ∃ b0 b1 b2 b3, s4 = [b0, b1, b2, b3] := by
    match s4, h4 with
    | [b0, b1, b2, b3], _ => exact ⟨b0, b1, b2, b3, rfl⟩
  have e1 : slice 0 4 ([b0, b1, b2, b3] ++ f.ack :: f.fin :: (be 8 f.cks.toNat ++ f.payload)) = [b0, b1, b2, b3] := rfl
  have e2 : slice 6 14 ([b0, b1, b2, b3] ++ f.ack :: f.fin :: (be 8 f.cks.toNat ++ f.payload)) = be 8 f.cks.toNat := hcut.symm
  have e3 : ([b0, b1, b2, b3] ++ f.ack :: f.fin :: (be 8 f.cks.toNat ++ f.payload)).drop 14 = f.payload := by
    show (be 8 f.cks.toNat ++ f.payload).drop 8 = f.payload
    rw [List.drop_append_of_le_length (by simp), List.drop_of_length_le (by simp), List.nil_append]
  rw [e1, e2, e3, hs, hc]
  simp

/-- R152, R90: the wire bytes of a parsed frame record are the bytes parsed. -/
theorem frameWire_of_parseFrame {wire : List Byte} {f : Frame} (h : parseFrame wire = .ok f) :
    frameWire f = wire ∧ f.payload.length ≤ Config.packetSize := by
  unfold parseFrame at h
  split at h
  · cases h
  split at h
  · cases h
  rename_i h14 hmax
  simp only [Config.headerSize, Config.maxFrame] at h14 hmax
  obtain ⟨b0, b1, b2, b3, b4, b5, rest, rfl⟩ : ∃ b0 b1 b2 b3 b4 b5 rest, wire = b0 :: b1 :: b2 :: b3 :: b4 :: b5 :: rest := by
    match wire, h14 with
    | b0 :: b1 :: b2 :: b3 :: b4 :: b5 :: rest, _ => exact ⟨b0, b1, b2, b3, b4, b5, rest, rfl⟩
    | [], h => simp at h
    | [_], h => simp at h
    | [_, _], h => simp at h
    | [_, _, _], h => simp at h
    | [_, _, _, _], h => simp at h
    | [_, _, _, _, _], h => simp at h
  simp only [List.length_cons] at h14 hmax
  injection h with h
  subst h
  have hs := be_fromBe [b0, b1, b2, b3]
  have hc := be_fromBe (rest.take 8)
  have hl : (rest.take 8).length = 8 := by rw [List.length_take]; omega
  have lc := fromBe_lt (rest.take 8)
  have ls := fromBe_lt [b0, b1, b2, b3]
  rw [hl] at hc lc
  simp only [List.length_cons, List.length_nil] at hs ls
  constructor
  · rw [frameWire_eq]
    have e1 : slice 0 4 (b0 :: b1 :: b2 :: b3 :: b4 :: b5 :: rest) = [b0, b1, b2, b3] := rfl
    have e2 : slice 6 14 (b0 :: b1 :: b2 :: b3 :: b4 :: b5 :: rest) = rest.take 8 := rfl
    have e3 : (b0 :: b1 :: b2 :: b3 :: b4 :: b5 :: rest).drop 14 = rest.drop 8 := rfl
    simp only [e1, e2, e3]
    rw [BitVec.toNat_ofNat, BitVec.toNat_ofNat, Nat.mod_eq_of_lt (by simpa using ls), Nat.mod_eq_of_lt (by simpa using lc), hc]
    have hs' : be 4 (fromBe [b0, b1, b2, b3]) = [b0, b1, b2, b3] := hs
    rw [hs', List.take_append_drop]
    rfl
  · simp only [List.length_drop, List.length_cons, Config.packetSize]; omega

/-- R150, R152: what `ENCODE` builds parses to the record it was built from, whatever the checksum (R10). -/
theorem parseFrame_encodeBytes (k : Config.Parameters) (s a f : Bool) (payload : List Byte) (h : payload.length ≤ Config.packetSize) :
    parseFrame (encodeWith k s a f payload) = .ok (buildWith k s a f payload) :=
  parseFrame_frameWire _ h

/-- R156: what `ENCODE` builds is acceptable, whatever the checksum (R10). -/
theorem acceptableFrame_encodeBytes (k : Config.Parameters) (s a f : Bool) (payload : List Byte)
    (h : payload.length ≤ Config.packetSize) : acceptWith k (encodeWith k s a f payload) = some (buildWith k s a f payload) := by
  have hv : validWith k (buildWith k s a f payload) = true := by
    unfold validWith coveredBytes frameHeader buildWith
    exact beq_self_eq_true _
  have hw : frameWellFormed (buildWith k s a f payload) = true := by
    cases s <;> cases a <;> cases f <;> rfl
  simp only [acceptWith, parseFrame_encodeBytes k s a f payload h, hv, hw, Bool.and_self, if_true]

/-- R133, R134: for this hardware the accumulator after CRC.COMPUTE is the one that CRC.UPDATE of each byte leaves. -/
theorem crcAfter_hardware (bytes : List Byte) : crcAfter hardware bytes = crcRun Config.crc Config.crc.init bytes := by
  simp [crcAfter, hardware, crc32, crcOf, crcFinish]

end Sys2Proof.Machine
end

