-- ==== Sys2Proof/Laws/Memory.lean ====
section
/-! SUPPORT. The byte spaces: a read after a write, and that every operation keeps the canonical form. -/

namespace Sys2Proof.Machine

@[simp] theorem Memory.wf_nil : Memory.wf [] = true := rfl

theorem Memory.wf_cons (c : Host.Cell) (m : Memory) :
    Memory.wf (c :: m) = true ↔ (∀ d ∈ m, c.1 < d.1) ∧ Memory.wf m = true := by
  simp [Memory.wf]

/-- A write lists no offset but its own and those already listed. -/
theorem Memory.mem_write {m : Memory} {k : Nat} {v : Byte} {d : Host.Cell} (h : d ∈ m.write k v) : d.1 = k ∨ d ∈ m := by
  induction m with
  | nil => simp [Memory.write] at h; simp [h]
  | cons c m ih =>
    unfold Memory.write at h
    split at h
    · rcases List.mem_cons.1 h with rfl | h
      · exact .inl rfl
      · exact .inr h
    · split at h
      · rcases List.mem_cons.1 h with rfl | h
        · exact .inl rfl
        · exact .inr (List.mem_cons_of_mem _ h)
      · rcases List.mem_cons.1 h with rfl | h
        · exact .inr List.mem_cons_self
        · exact (ih h).imp id (List.mem_cons_of_mem _)

/-- A write keeps the canonical form. -/
theorem Memory.write_wf {m : Memory} (h : m.wf = true) (k : Nat) (v : Byte) : (m.write k v).wf = true := by
  induction m with
  | nil => rfl
  | cons c m ih =>
    obtain ⟨hc, hm⟩ := (Memory.wf_cons c m).1 h
    unfold Memory.write
    split
    · rename_i hk
      refine (Memory.wf_cons _ _).2 ⟨fun d hd => ?_, h⟩
      rcases List.mem_cons.1 hd with rfl | hd
      · exact hk
      · exact Nat.lt_trans hk (hc d hd)
    · split
      · rename_i hk
        exact (Memory.wf_cons _ _).2 ⟨fun d hd => by simpa [hk] using hc d hd, hm⟩
      · refine (Memory.wf_cons _ _).2 ⟨fun d hd => ?_, ih hm⟩
        rcases Memory.mem_write hd with hd | hd
        · omega
        · exact hc d hd

theorem Memory.writeBytes_wf {m : Memory} (h : m.wf = true) (k : Nat) (bs : List Byte) : (m.writeBytes k bs).wf = true := by
  induction bs generalizing m k with
  | nil => exact h
  | cons b bs ih => exact ih (Memory.write_wf h k b) (k + 1)

theorem Memory.read_write_same (m : Memory) (k : Nat) (v : Byte) : (m.write k v).read k = some v := by
  induction m with
  | nil => simp [Memory.write, Memory.read]
  | cons c m ih =>
    unfold Memory.write
    split
    · simp [Memory.read]
    · split
      · simp [Memory.read]
      · rename_i h; simp [Memory.read, Ne.symm h, ih]

theorem Memory.read_write_other (m : Memory) {k j : Nat} (v : Byte) (h : j ≠ k) : (m.write k v).read j = m.read j := by
  induction m with
  | nil => simp [Memory.write, Memory.read, Ne.symm h]
  | cons c m ih =>
    unfold Memory.write
    split
    · rw [Memory.read]; simp [Ne.symm h]
    · split
      · rename_i hk; subst hk; simp [Memory.read, Ne.symm h]
      · rw [Memory.read, Memory.read, ih]

/-- A block write leaves every byte outside the block alone. -/
theorem Memory.read_writeBytes_outside (m : Memory) {k j : Nat} (bs : List Byte) (h : j < k ∨ k + bs.length ≤ j) :
    (m.writeBytes k bs).read j = m.read j := by
  induction bs generalizing m k with
  | nil => rfl
  | cons b bs ih =>
    rw [List.length_cons] at h
    rw [Memory.writeBytes, ih _ (by omega), Memory.read_write_other _ _ (by omega)]

/-- A block write leaves its own bytes inside the block. -/
theorem Memory.read_writeBytes_inside (m : Memory) (k : Nat) (bs : List Byte) {i : Nat} (h : i < bs.length) :
    (m.writeBytes k bs).read (k + i) = bs[i]? := by
  induction bs generalizing m k i with
  | nil => simp at h
  | cons b bs ih =>
    rw [Memory.writeBytes]
    cases i with
    | zero => rw [Memory.read_writeBytes_outside _ _ (by omega)]; exact Memory.read_write_same m k b
    | succ i =>
      rw [show k + (i + 1) = k + 1 + i by omega, ih _ _ (by simpa using h)]; rfl

theorem Memory.readBytes_length {m : Memory} {k n : Nat} {bs : List Byte} (h : m.readBytes k n = some bs) : bs.length = n := by
  induction n generalizing k bs with
  | zero => simp only [Memory.readBytes, Option.some.injEq] at h; simp [← h]
  | succ n ih =>
    unfold Memory.readBytes at h
    split at h
    · rename_i hr; cases h; simp [ih hr]
    · cases h

/-- A block read depends on the bytes of the block alone. -/
theorem Memory.readBytes_congr {m m' : Memory} {k n : Nat} (h : ∀ i, i < n → m.read (k + i) = m'.read (k + i)) :
    m.readBytes k n = m'.readBytes k n := by
  induction n generalizing k with
  | zero => rfl
  | succ n ih =>
    have h0 := h 0 (by omega)
    have hr := ih (k := k + 1) fun i hi => by
      rw [show k + 1 + i = k + (i + 1) by omega]; exact h (i + 1) (by omega)
    simp only [Nat.add_zero] at h0
    simp only [Memory.readBytes, h0, hr]

/-- A block that has been written can be read. -/
theorem Memory.readBytes_of_written {m : Memory} {k n : Nat} (h : ∀ i, i < n → (m.read (k + i)).isSome = true) :
    ∃ bs, m.readBytes k n = some bs := by
  induction n generalizing k with
  | zero => exact ⟨[], rfl⟩
  | succ n ih =>
    obtain ⟨b, hb⟩ := Option.isSome_iff_exists.1 (h 0 (by omega))
    obtain ⟨bs, hbs⟩ := ih (k := k + 1) fun i hi => by
      rw [show k + 1 + i = k + (i + 1) by omega]; exact h (i + 1) (by omega)
    exact ⟨b :: bs, by rw [Nat.add_zero] at hb; simp [Memory.readBytes, hb, hbs]⟩

/-- Reading a block just written gives it back. -/
theorem Memory.readBytes_writeBytes (m : Memory) (k : Nat) (bs : List Byte) :
    (m.writeBytes k bs).readBytes k bs.length = some bs := by
  induction bs generalizing m k with
  | nil => rfl
  | cons b bs ih =>
    have hb : ((m.write k b).writeBytes (k + 1) bs).read k = some b := by
      rw [Memory.read_writeBytes_outside _ _ (by omega), Memory.read_write_same]
    simp [Memory.writeBytes, Memory.readBytes, hb, ih]

end Sys2Proof.Machine
end

