-- ==== Sys2Proof/Laws/State.lean ====
section
/-! SUPPORT. What every update of the state does to every field of the state: one lemma per field per update, all by `rfl`. -/

namespace Sys2Proof.Machine

variable (s : State)

/-! ### mapSender -/

@[simp] theorem mapSender_sender (f : Sender → Sender) : (mapSender f s).sender = f s.sender := rfl
@[simp] theorem mapSender_receiver (f : Sender → Sender) : (mapSender f s).receiver = s.receiver := rfl
@[simp] theorem mapSender_senderSide (f : Sender → Sender) : (mapSender f s).senderSide = s.senderSide := rfl
@[simp] theorem mapSender_receiverSide (f : Sender → Sender) : (mapSender f s).receiverSide = s.receiverSide := rfl
@[simp] theorem mapSender_inFlight (f : Sender → Sender) : (mapSender f s).inFlight = s.inFlight := rfl
@[simp] theorem mapSender_outputs (f : Sender → Sender) : (mapSender f s).outputs = s.outputs := rfl
@[simp] theorem mapSender_agenda (f : Sender → Sender) : (mapSender f s).agenda = s.agenda := rfl
@[simp] theorem mapSender_free (f : Sender → Sender) : (mapSender f s).free = s.free := rfl
@[simp] theorem mapSender_unitCall (f : Sender → Sender) : (mapSender f s).unitCall = s.unitCall := rfl

/-! ### mapReceiver -/

@[simp] theorem mapReceiver_sender (f : Receiver → Receiver) : (mapReceiver f s).sender = s.sender := rfl
@[simp] theorem mapReceiver_receiver (f : Receiver → Receiver) : (mapReceiver f s).receiver = f s.receiver := rfl
@[simp] theorem mapReceiver_senderSide (f : Receiver → Receiver) : (mapReceiver f s).senderSide = s.senderSide := rfl
@[simp] theorem mapReceiver_receiverSide (f : Receiver → Receiver) : (mapReceiver f s).receiverSide = s.receiverSide := rfl
@[simp] theorem mapReceiver_inFlight (f : Receiver → Receiver) : (mapReceiver f s).inFlight = s.inFlight := rfl
@[simp] theorem mapReceiver_outputs (f : Receiver → Receiver) : (mapReceiver f s).outputs = s.outputs := rfl
@[simp] theorem mapReceiver_agenda (f : Receiver → Receiver) : (mapReceiver f s).agenda = s.agenda := rfl
@[simp] theorem mapReceiver_free (f : Receiver → Receiver) : (mapReceiver f s).free = s.free := rfl
@[simp] theorem mapReceiver_unitCall (f : Receiver → Receiver) : (mapReceiver f s).unitCall = s.unitCall := rfl

/-! ### mapCommon sender -/

@[simp] theorem mapCommon_sender_sender (f : Common → Common) :
    (mapCommon .sender f s).sender = { s.sender with common := f s.sender.common } := rfl
@[simp] theorem mapCommon_sender_receiver (f : Common → Common) : (mapCommon .sender f s).receiver = s.receiver := rfl
@[simp] theorem mapCommon_sender_senderSide (f : Common → Common) : (mapCommon .sender f s).senderSide = s.senderSide := rfl
@[simp] theorem mapCommon_sender_receiverSide (f : Common → Common) : (mapCommon .sender f s).receiverSide = s.receiverSide := rfl
@[simp] theorem mapCommon_sender_inFlight (f : Common → Common) : (mapCommon .sender f s).inFlight = s.inFlight := rfl
@[simp] theorem mapCommon_sender_outputs (f : Common → Common) : (mapCommon .sender f s).outputs = s.outputs := rfl
@[simp] theorem mapCommon_sender_agenda (f : Common → Common) : (mapCommon .sender f s).agenda = s.agenda := rfl
@[simp] theorem mapCommon_sender_free (f : Common → Common) : (mapCommon .sender f s).free = s.free := rfl
@[simp] theorem mapCommon_sender_unitCall (f : Common → Common) : (mapCommon .sender f s).unitCall = s.unitCall := rfl

/-! ### mapCommon receiver -/

@[simp] theorem mapCommon_receiver_sender (f : Common → Common) : (mapCommon .receiver f s).sender = s.sender := rfl
@[simp] theorem mapCommon_receiver_receiver (f : Common → Common) :
    (mapCommon .receiver f s).receiver = { s.receiver with common := f s.receiver.common } := rfl
@[simp] theorem mapCommon_receiver_senderSide (f : Common → Common) : (mapCommon .receiver f s).senderSide = s.senderSide := rfl
@[simp] theorem mapCommon_receiver_receiverSide (f : Common → Common) :
    (mapCommon .receiver f s).receiverSide = s.receiverSide := rfl
@[simp] theorem mapCommon_receiver_inFlight (f : Common → Common) : (mapCommon .receiver f s).inFlight = s.inFlight := rfl
@[simp] theorem mapCommon_receiver_outputs (f : Common → Common) : (mapCommon .receiver f s).outputs = s.outputs := rfl
@[simp] theorem mapCommon_receiver_agenda (f : Common → Common) : (mapCommon .receiver f s).agenda = s.agenda := rfl
@[simp] theorem mapCommon_receiver_free (f : Common → Common) : (mapCommon .receiver f s).free = s.free := rfl
@[simp] theorem mapCommon_receiver_unitCall (f : Common → Common) : (mapCommon .receiver f s).unitCall = s.unitCall := rfl

/-! ### mapSide sender -/

@[simp] theorem mapSide_sender_sender (f : Side → Side) : (mapSide .sender f s).sender = s.sender := rfl
@[simp] theorem mapSide_sender_receiver (f : Side → Side) : (mapSide .sender f s).receiver = s.receiver := rfl
@[simp] theorem mapSide_sender_senderSide (f : Side → Side) : (mapSide .sender f s).senderSide = f s.senderSide := rfl
@[simp] theorem mapSide_sender_receiverSide (f : Side → Side) : (mapSide .sender f s).receiverSide = s.receiverSide := rfl
@[simp] theorem mapSide_sender_inFlight (f : Side → Side) : (mapSide .sender f s).inFlight = s.inFlight := rfl
@[simp] theorem mapSide_sender_outputs (f : Side → Side) : (mapSide .sender f s).outputs = s.outputs := rfl
@[simp] theorem mapSide_sender_agenda (f : Side → Side) : (mapSide .sender f s).agenda = s.agenda := rfl
@[simp] theorem mapSide_sender_free (f : Side → Side) : (mapSide .sender f s).free = s.free := rfl
@[simp] theorem mapSide_sender_unitCall (f : Side → Side) : (mapSide .sender f s).unitCall = s.unitCall := rfl

/-! ### mapSide receiver -/

@[simp] theorem mapSide_receiver_sender (f : Side → Side) : (mapSide .receiver f s).sender = s.sender := rfl
@[simp] theorem mapSide_receiver_receiver (f : Side → Side) : (mapSide .receiver f s).receiver = s.receiver := rfl
@[simp] theorem mapSide_receiver_senderSide (f : Side → Side) : (mapSide .receiver f s).senderSide = s.senderSide := rfl
@[simp] theorem mapSide_receiver_receiverSide (f : Side → Side) : (mapSide .receiver f s).receiverSide = f s.receiverSide := rfl
@[simp] theorem mapSide_receiver_inFlight (f : Side → Side) : (mapSide .receiver f s).inFlight = s.inFlight := rfl
@[simp] theorem mapSide_receiver_outputs (f : Side → Side) : (mapSide .receiver f s).outputs = s.outputs := rfl
@[simp] theorem mapSide_receiver_agenda (f : Side → Side) : (mapSide .receiver f s).agenda = s.agenda := rfl
@[simp] theorem mapSide_receiver_free (f : Side → Side) : (mapSide .receiver f s).free = s.free := rfl
@[simp] theorem mapSide_receiver_unitCall (f : Side → Side) : (mapSide .receiver f s).unitCall = s.unitCall := rfl

/-! ### setCrc sender -/

@[simp] theorem setCrc_sender_sender (acc : Crc) :
    (setCrc .sender acc s).sender = { s.sender with common := { s.sender.common with crcAcc := acc } } := rfl
@[simp] theorem setCrc_sender_receiver (acc : Crc) : (setCrc .sender acc s).receiver = s.receiver := rfl
@[simp] theorem setCrc_sender_senderSide (acc : Crc) : (setCrc .sender acc s).senderSide = s.senderSide := rfl
@[simp] theorem setCrc_sender_receiverSide (acc : Crc) : (setCrc .sender acc s).receiverSide = s.receiverSide := rfl
@[simp] theorem setCrc_sender_inFlight (acc : Crc) : (setCrc .sender acc s).inFlight = s.inFlight := rfl
@[simp] theorem setCrc_sender_outputs (acc : Crc) : (setCrc .sender acc s).outputs = s.outputs := rfl
@[simp] theorem setCrc_sender_agenda (acc : Crc) : (setCrc .sender acc s).agenda = s.agenda := rfl
@[simp] theorem setCrc_sender_free (acc : Crc) : (setCrc .sender acc s).free = s.free := rfl
@[simp] theorem setCrc_sender_unitCall (acc : Crc) : (setCrc .sender acc s).unitCall = s.unitCall := rfl

/-! ### setCrc receiver -/

@[simp] theorem setCrc_receiver_sender (acc : Crc) : (setCrc .receiver acc s).sender = s.sender := rfl
@[simp] theorem setCrc_receiver_receiver (acc : Crc) :
    (setCrc .receiver acc s).receiver = { s.receiver with common := { s.receiver.common with crcAcc := acc } } := rfl
@[simp] theorem setCrc_receiver_senderSide (acc : Crc) : (setCrc .receiver acc s).senderSide = s.senderSide := rfl
@[simp] theorem setCrc_receiver_receiverSide (acc : Crc) : (setCrc .receiver acc s).receiverSide = s.receiverSide := rfl
@[simp] theorem setCrc_receiver_inFlight (acc : Crc) : (setCrc .receiver acc s).inFlight = s.inFlight := rfl
@[simp] theorem setCrc_receiver_outputs (acc : Crc) : (setCrc .receiver acc s).outputs = s.outputs := rfl
@[simp] theorem setCrc_receiver_agenda (acc : Crc) : (setCrc .receiver acc s).agenda = s.agenda := rfl
@[simp] theorem setCrc_receiver_free (acc : Crc) : (setCrc .receiver acc s).free = s.free := rfl
@[simp] theorem setCrc_receiver_unitCall (acc : Crc) : (setCrc .receiver acc s).unitCall = s.unitCall := rfl

/-! ### setFrameIn sender -/

@[simp] theorem setFrameIn_sender_sender (wire : List Byte) :
    (setFrameIn .sender wire s).sender = { s.sender with common := { s.sender.common with frameIn := Memory.writeBytes [] 0 wire } } := rfl
@[simp] theorem setFrameIn_sender_receiver (wire : List Byte) : (setFrameIn .sender wire s).receiver = s.receiver := rfl
@[simp] theorem setFrameIn_sender_senderSide (wire : List Byte) : (setFrameIn .sender wire s).senderSide = s.senderSide := rfl
@[simp] theorem setFrameIn_sender_receiverSide (wire : List Byte) :
    (setFrameIn .sender wire s).receiverSide = s.receiverSide := rfl
@[simp] theorem setFrameIn_sender_inFlight (wire : List Byte) : (setFrameIn .sender wire s).inFlight = s.inFlight := rfl
@[simp] theorem setFrameIn_sender_outputs (wire : List Byte) : (setFrameIn .sender wire s).outputs = s.outputs := rfl
@[simp] theorem setFrameIn_sender_agenda (wire : List Byte) : (setFrameIn .sender wire s).agenda = s.agenda := rfl
@[simp] theorem setFrameIn_sender_free (wire : List Byte) : (setFrameIn .sender wire s).free = s.free := rfl
@[simp] theorem setFrameIn_sender_unitCall (wire : List Byte) : (setFrameIn .sender wire s).unitCall = s.unitCall := rfl

/-! ### setFrameIn receiver -/

@[simp] theorem setFrameIn_receiver_sender (wire : List Byte) : (setFrameIn .receiver wire s).sender = s.sender := rfl
@[simp] theorem setFrameIn_receiver_receiver (wire : List Byte) :
    (setFrameIn .receiver wire s).receiver = { s.receiver with common := { s.receiver.common with frameIn := Memory.writeBytes [] 0 wire } } := rfl
@[simp] theorem setFrameIn_receiver_senderSide (wire : List Byte) : (setFrameIn .receiver wire s).senderSide = s.senderSide := rfl
@[simp] theorem setFrameIn_receiver_receiverSide (wire : List Byte) :
    (setFrameIn .receiver wire s).receiverSide = s.receiverSide := rfl
@[simp] theorem setFrameIn_receiver_inFlight (wire : List Byte) : (setFrameIn .receiver wire s).inFlight = s.inFlight := rfl
@[simp] theorem setFrameIn_receiver_outputs (wire : List Byte) : (setFrameIn .receiver wire s).outputs = s.outputs := rfl
@[simp] theorem setFrameIn_receiver_agenda (wire : List Byte) : (setFrameIn .receiver wire s).agenda = s.agenda := rfl
@[simp] theorem setFrameIn_receiver_free (wire : List Byte) : (setFrameIn .receiver wire s).free = s.free := rfl
@[simp] theorem setFrameIn_receiver_unitCall (wire : List Byte) : (setFrameIn .receiver wire s).unitCall = s.unitCall := rfl

/-! ### setFrameOut sender -/

@[simp] theorem setFrameOut_sender_sender (wire : List Byte) :
    (setFrameOut .sender wire s).sender = { s.sender with common := { s.sender.common with frameOut := s.sender.common.frameOut.writeBytes 0 wire } } := rfl
@[simp] theorem setFrameOut_sender_receiver (wire : List Byte) : (setFrameOut .sender wire s).receiver = s.receiver := rfl
@[simp] theorem setFrameOut_sender_senderSide (wire : List Byte) : (setFrameOut .sender wire s).senderSide = s.senderSide := rfl
@[simp] theorem setFrameOut_sender_receiverSide (wire : List Byte) :
    (setFrameOut .sender wire s).receiverSide = s.receiverSide := rfl
@[simp] theorem setFrameOut_sender_inFlight (wire : List Byte) : (setFrameOut .sender wire s).inFlight = s.inFlight := rfl
@[simp] theorem setFrameOut_sender_outputs (wire : List Byte) : (setFrameOut .sender wire s).outputs = s.outputs := rfl
@[simp] theorem setFrameOut_sender_agenda (wire : List Byte) : (setFrameOut .sender wire s).agenda = s.agenda := rfl
@[simp] theorem setFrameOut_sender_free (wire : List Byte) : (setFrameOut .sender wire s).free = s.free := rfl
@[simp] theorem setFrameOut_sender_unitCall (wire : List Byte) : (setFrameOut .sender wire s).unitCall = s.unitCall := rfl

/-! ### setFrameOut receiver -/

@[simp] theorem setFrameOut_receiver_sender (wire : List Byte) : (setFrameOut .receiver wire s).sender = s.sender := rfl
@[simp] theorem setFrameOut_receiver_receiver (wire : List Byte) :
    (setFrameOut .receiver wire s).receiver = { s.receiver with common := { s.receiver.common with frameOut := s.receiver.common.frameOut.writeBytes 0 wire } } := rfl
@[simp] theorem setFrameOut_receiver_senderSide (wire : List Byte) :
    (setFrameOut .receiver wire s).senderSide = s.senderSide := rfl
@[simp] theorem setFrameOut_receiver_receiverSide (wire : List Byte) :
    (setFrameOut .receiver wire s).receiverSide = s.receiverSide := rfl
@[simp] theorem setFrameOut_receiver_inFlight (wire : List Byte) : (setFrameOut .receiver wire s).inFlight = s.inFlight := rfl
@[simp] theorem setFrameOut_receiver_outputs (wire : List Byte) : (setFrameOut .receiver wire s).outputs = s.outputs := rfl
@[simp] theorem setFrameOut_receiver_agenda (wire : List Byte) : (setFrameOut .receiver wire s).agenda = s.agenda := rfl
@[simp] theorem setFrameOut_receiver_free (wire : List Byte) : (setFrameOut .receiver wire s).free = s.free := rfl
@[simp] theorem setFrameOut_receiver_unitCall (wire : List Byte) : (setFrameOut .receiver wire s).unitCall = s.unitCall := rfl

/-! ### writeFrame sender -/

@[simp] theorem writeFrame_sender_sender (k : Config.Parameters) (q a f : Bool) (payload : List Byte) :
    (writeFrame k .sender q a f payload s).sender = { s.sender with common := { s.sender.common with
      crcAcc := crcAfter k (coveredBytes (buildWith k q a f payload))
      frameOut := s.sender.common.frameOut.writeBytes 0 (encodeWith k q a f payload) } } := rfl
@[simp] theorem writeFrame_sender_receiver (k : Config.Parameters) (q a f : Bool) (payload : List Byte) :
    (writeFrame k .sender q a f payload s).receiver = s.receiver := rfl
@[simp] theorem writeFrame_sender_senderSide (k : Config.Parameters) (q a f : Bool) (payload : List Byte) :
    (writeFrame k .sender q a f payload s).senderSide = s.senderSide := rfl
@[simp] theorem writeFrame_sender_receiverSide (k : Config.Parameters) (q a f : Bool) (payload : List Byte) :
    (writeFrame k .sender q a f payload s).receiverSide = s.receiverSide := rfl
@[simp] theorem writeFrame_sender_inFlight (k : Config.Parameters) (q a f : Bool) (payload : List Byte) :
    (writeFrame k .sender q a f payload s).inFlight = s.inFlight := rfl
@[simp] theorem writeFrame_sender_outputs (k : Config.Parameters) (q a f : Bool) (payload : List Byte) :
    (writeFrame k .sender q a f payload s).outputs = s.outputs := rfl
@[simp] theorem writeFrame_sender_agenda (k : Config.Parameters) (q a f : Bool) (payload : List Byte) :
    (writeFrame k .sender q a f payload s).agenda = s.agenda := rfl
@[simp] theorem writeFrame_sender_free (k : Config.Parameters) (q a f : Bool) (payload : List Byte) :
    (writeFrame k .sender q a f payload s).free = s.free := rfl
@[simp] theorem writeFrame_sender_unitCall (k : Config.Parameters) (q a f : Bool) (payload : List Byte) :
    (writeFrame k .sender q a f payload s).unitCall = s.unitCall := rfl

/-! ### writeFrame receiver -/

@[simp] theorem writeFrame_receiver_sender (k : Config.Parameters) (q a f : Bool) (payload : List Byte) :
    (writeFrame k .receiver q a f payload s).sender = s.sender := rfl
@[simp] theorem writeFrame_receiver_receiver (k : Config.Parameters) (q a f : Bool) (payload : List Byte) :
    (writeFrame k .receiver q a f payload s).receiver = { s.receiver with common := { s.receiver.common with
      crcAcc := crcAfter k (coveredBytes (buildWith k q a f payload))
      frameOut := s.receiver.common.frameOut.writeBytes 0 (encodeWith k q a f payload) } } := rfl
@[simp] theorem writeFrame_receiver_senderSide (k : Config.Parameters) (q a f : Bool) (payload : List Byte) :
    (writeFrame k .receiver q a f payload s).senderSide = s.senderSide := rfl
@[simp] theorem writeFrame_receiver_receiverSide (k : Config.Parameters) (q a f : Bool) (payload : List Byte) :
    (writeFrame k .receiver q a f payload s).receiverSide = s.receiverSide := rfl
@[simp] theorem writeFrame_receiver_inFlight (k : Config.Parameters) (q a f : Bool) (payload : List Byte) :
    (writeFrame k .receiver q a f payload s).inFlight = s.inFlight := rfl
@[simp] theorem writeFrame_receiver_outputs (k : Config.Parameters) (q a f : Bool) (payload : List Byte) :
    (writeFrame k .receiver q a f payload s).outputs = s.outputs := rfl
@[simp] theorem writeFrame_receiver_agenda (k : Config.Parameters) (q a f : Bool) (payload : List Byte) :
    (writeFrame k .receiver q a f payload s).agenda = s.agenda := rfl
@[simp] theorem writeFrame_receiver_free (k : Config.Parameters) (q a f : Bool) (payload : List Byte) :
    (writeFrame k .receiver q a f payload s).free = s.free := rfl
@[simp] theorem writeFrame_receiver_unitCall (k : Config.Parameters) (q a f : Bool) (payload : List Byte) :
    (writeFrame k .receiver q a f payload s).unitCall = s.unitCall := rfl

/-! ### emit -/

@[simp] theorem emit_sender (o : Output) : (emit o s).sender = s.sender := rfl
@[simp] theorem emit_receiver (o : Output) : (emit o s).receiver = s.receiver := rfl
@[simp] theorem emit_senderSide (o : Output) : (emit o s).senderSide = s.senderSide := rfl
@[simp] theorem emit_receiverSide (o : Output) : (emit o s).receiverSide = s.receiverSide := rfl
@[simp] theorem emit_inFlight (o : Output) : (emit o s).inFlight = s.inFlight := rfl
@[simp] theorem emit_outputs (o : Output) : (emit o s).outputs = s.outputs ++ [o] := rfl
@[simp] theorem emit_agenda (o : Output) : (emit o s).agenda = s.agenda := rfl
@[simp] theorem emit_free (o : Output) : (emit o s).free = s.free := rfl
@[simp] theorem emit_unitCall (o : Output) : (emit o s).unitCall = s.unitCall := rfl

/-! ### send -/

@[simp] theorem send_sender (who : Role) (dst : Endpoint) (wire : List Byte) : (send who dst wire s).sender = s.sender := rfl
@[simp] theorem send_receiver (who : Role) (dst : Endpoint) (wire : List Byte) :
    (send who dst wire s).receiver = s.receiver := rfl
@[simp] theorem send_senderSide (who : Role) (dst : Endpoint) (wire : List Byte) :
    (send who dst wire s).senderSide = s.senderSide := rfl
@[simp] theorem send_receiverSide (who : Role) (dst : Endpoint) (wire : List Byte) :
    (send who dst wire s).receiverSide = s.receiverSide := rfl
@[simp] theorem send_inFlight (who : Role) (dst : Endpoint) (wire : List Byte) :
    (send who dst wire s).inFlight = s.inFlight ++
      (if (sideOf who s).outboundUp then injectedCopies (sideOf who s).injector (Config.draw s.free) wire else []).map
        fun w => (⟨dst, (commonOf who s).addr, w⟩ : Datagram) := rfl
@[simp] theorem send_outputs (who : Role) (dst : Endpoint) (wire : List Byte) :
    (send who dst wire s).outputs = s.outputs ++ [.sent who dst wire] := rfl
@[simp] theorem send_agenda (who : Role) (dst : Endpoint) (wire : List Byte) : (send who dst wire s).agenda = s.agenda := rfl
@[simp] theorem send_free (who : Role) (dst : Endpoint) (wire : List Byte) : (send who dst wire s).free = s.free + 1 := rfl
@[simp] theorem send_unitCall (who : Role) (dst : Endpoint) (wire : List Byte) : (send who dst wire s).unitCall = s.unitCall := rfl

/-! ### keepInFlight -/

@[simp] theorem keepInFlight_sender (who : Role) (src : Addr) (wire : List Byte) :
    (keepInFlight who src wire s).sender = s.sender := rfl
@[simp] theorem keepInFlight_receiver (who : Role) (src : Addr) (wire : List Byte) :
    (keepInFlight who src wire s).receiver = s.receiver := rfl
@[simp] theorem keepInFlight_senderSide (who : Role) (src : Addr) (wire : List Byte) :
    (keepInFlight who src wire s).senderSide = s.senderSide := rfl
@[simp] theorem keepInFlight_receiverSide (who : Role) (src : Addr) (wire : List Byte) :
    (keepInFlight who src wire s).receiverSide = s.receiverSide := rfl
@[simp] theorem keepInFlight_inFlight (who : Role) (src : Addr) (wire : List Byte) :
    (keepInFlight who src wire s).inFlight = s.inFlight ++ [⟨ownEndpoint who s, src, wire⟩] := rfl
@[simp] theorem keepInFlight_outputs (who : Role) (src : Addr) (wire : List Byte) :
    (keepInFlight who src wire s).outputs = s.outputs := rfl
@[simp] theorem keepInFlight_agenda (who : Role) (src : Addr) (wire : List Byte) :
    (keepInFlight who src wire s).agenda = s.agenda := rfl
@[simp] theorem keepInFlight_free (who : Role) (src : Addr) (wire : List Byte) :
    (keepInFlight who src wire s).free = s.free := rfl
@[simp] theorem keepInFlight_unitCall (who : Role) (src : Addr) (wire : List Byte) :
    (keepInFlight who src wire s).unitCall = s.unitCall := rfl

/-! ### startTimer -/

@[simp] theorem startTimer_sender (d : BitVec 32) :
    (startTimer d s).sender = { s.sender with tmrCount := d, tmrArmed := true } := rfl
@[simp] theorem startTimer_receiver (d : BitVec 32) : (startTimer d s).receiver = s.receiver := rfl
@[simp] theorem startTimer_senderSide (d : BitVec 32) : (startTimer d s).senderSide = s.senderSide := rfl
@[simp] theorem startTimer_receiverSide (d : BitVec 32) : (startTimer d s).receiverSide = s.receiverSide := rfl
@[simp] theorem startTimer_inFlight (d : BitVec 32) : (startTimer d s).inFlight = s.inFlight := rfl
@[simp] theorem startTimer_outputs (d : BitVec 32) : (startTimer d s).outputs = s.outputs := rfl
@[simp] theorem startTimer_agenda (d : BitVec 32) : (startTimer d s).agenda = s.agenda := rfl
@[simp] theorem startTimer_free (d : BitVec 32) : (startTimer d s).free = s.free := rfl
@[simp] theorem startTimer_unitCall (d : BitVec 32) : (startTimer d s).unitCall = s.unitCall := rfl

/-! ### cancelTimer -/

@[simp] theorem cancelTimer_sender : (cancelTimer s).sender = { s.sender with tmrArmed := false } := rfl
@[simp] theorem cancelTimer_receiver : (cancelTimer s).receiver = s.receiver := rfl
@[simp] theorem cancelTimer_senderSide : (cancelTimer s).senderSide = s.senderSide := rfl
@[simp] theorem cancelTimer_receiverSide : (cancelTimer s).receiverSide = s.receiverSide := rfl
@[simp] theorem cancelTimer_inFlight : (cancelTimer s).inFlight = s.inFlight := rfl
@[simp] theorem cancelTimer_outputs : (cancelTimer s).outputs = s.outputs := rfl
@[simp] theorem cancelTimer_agenda : (cancelTimer s).agenda = s.agenda := rfl
@[simp] theorem cancelTimer_free : (cancelTimer s).free = s.free := rfl
@[simp] theorem cancelTimer_unitCall : (cancelTimer s).unitCall = s.unitCall := rfl

/-! ### countChunk -/

@[simp] theorem countChunk_sender (k : Nat) :
    (countChunk k s).sender = { s.sender with txSent := s.sender.txSent + k, txLast := BitVec.ofNat 11 k } := rfl
@[simp] theorem countChunk_receiver (k : Nat) : (countChunk k s).receiver = s.receiver := rfl
@[simp] theorem countChunk_senderSide (k : Nat) : (countChunk k s).senderSide = s.senderSide := rfl
@[simp] theorem countChunk_receiverSide (k : Nat) : (countChunk k s).receiverSide = s.receiverSide := rfl
@[simp] theorem countChunk_inFlight (k : Nat) : (countChunk k s).inFlight = s.inFlight := rfl
@[simp] theorem countChunk_outputs (k : Nat) : (countChunk k s).outputs = s.outputs := rfl
@[simp] theorem countChunk_agenda (k : Nat) : (countChunk k s).agenda = s.agenda := rfl
@[simp] theorem countChunk_free (k : Nat) : (countChunk k s).free = s.free := rfl
@[simp] theorem countChunk_unitCall (k : Nat) : (countChunk k s).unitCall = s.unitCall := rfl

/-! ### rollBack -/

@[simp] theorem rollBack_sender : (rollBack s).sender = { s.sender with txSent := s.sender.txSent - s.sender.txLast.toNat } := rfl
@[simp] theorem rollBack_receiver : (rollBack s).receiver = s.receiver := rfl
@[simp] theorem rollBack_senderSide : (rollBack s).senderSide = s.senderSide := rfl
@[simp] theorem rollBack_receiverSide : (rollBack s).receiverSide = s.receiverSide := rfl
@[simp] theorem rollBack_inFlight : (rollBack s).inFlight = s.inFlight := rfl
@[simp] theorem rollBack_outputs : (rollBack s).outputs = s.outputs := rfl
@[simp] theorem rollBack_agenda : (rollBack s).agenda = s.agenda := rfl
@[simp] theorem rollBack_free : (rollBack s).free = s.free := rfl
@[simp] theorem rollBack_unitCall : (rollBack s).unitCall = s.unitCall := rfl

/-! ### setTxState -/

@[simp] theorem setTxState_sender (q : TxState) : (setTxState q s).sender = { s.sender with txState := q } := rfl
@[simp] theorem setTxState_receiver (q : TxState) : (setTxState q s).receiver = s.receiver := rfl
@[simp] theorem setTxState_senderSide (q : TxState) : (setTxState q s).senderSide = s.senderSide := rfl
@[simp] theorem setTxState_receiverSide (q : TxState) : (setTxState q s).receiverSide = s.receiverSide := rfl
@[simp] theorem setTxState_inFlight (q : TxState) : (setTxState q s).inFlight = s.inFlight := rfl
@[simp] theorem setTxState_outputs (q : TxState) : (setTxState q s).outputs = s.outputs := rfl
@[simp] theorem setTxState_agenda (q : TxState) : (setTxState q s).agenda = s.agenda := rfl
@[simp] theorem setTxState_free (q : TxState) : (setTxState q s).free = s.free := rfl
@[simp] theorem setTxState_unitCall (q : TxState) : (setTxState q s).unitCall = s.unitCall := rfl

/-! ### setSocket -/

@[simp] theorem setSocket_injector (socket : Socket) (up : Bool) (x : Side) : (setSocket socket up x).injector = x.injector := by
  cases socket <;> rfl
@[simp] theorem setSocket_outbound (up : Bool) (x : Side) : setSocket .outbound up x = { x with outboundUp := up } := rfl
@[simp] theorem setSocket_inbound (up : Bool) (x : Side) : setSocket .inbound up x = { x with inboundUp := up } := rfl

/-! ### Ports for a table row's word -/

/-- R11: where the host has not supplied both ports, those the model takes differ. -/
theorem dataPortOr_ne_ackPortOr {c : Common} (h : c.portData = none ∨ c.portAck = none) : dataPortOr c ≠ ackPortOr c := by
  unfold ackPortOr dataPortOr
  cases hd : c.portData with
  | none =>
    cases c.portAck with
    | none => decide
    | some q =>
      simp only [Option.getD_none, Option.getD_some, Option.some.injEq]
      split
      · rename_i hq; rw [hq]; decide
      · exact Ne.symm ‹_›
  | some p =>
    rw [h.resolve_left (by simp [hd])]
    simp only [Option.getD_none, Option.getD_some]
    split
    · rename_i hp; rw [hp]; decide
    · assumption

/-! ### Reading by instance -/

@[simp] theorem commonOf_sender : commonOf .sender s = s.sender.common := rfl
@[simp] theorem commonOf_receiver : commonOf .receiver s = s.receiver.common := rfl
@[simp] theorem sideOf_sender : sideOf .sender s = s.senderSide := rfl
@[simp] theorem sideOf_receiver : sideOf .receiver s = s.receiverSide := rfl
@[simp] theorem ownEndpoint_sender : ownEndpoint .sender s = ⟨s.sender.common.addr, s.sender.common.portAck⟩ := rfl
@[simp] theorem ownEndpoint_receiver : ownEndpoint .receiver s = ⟨s.receiver.common.addr, s.receiver.common.portData⟩ := rfl

/-- After power-on nothing is listed, so every space is in canonical form. -/
theorem reset_memories_wf :
    Memory.wf State.reset.sender.txBuf = true ∧ Memory.wf State.reset.receiver.rxBuf = true ∧
    Memory.wf State.reset.sender.common.frameOut = true ∧ Memory.wf State.reset.sender.common.frameIn = true ∧
    Memory.wf State.reset.receiver.common.frameOut = true ∧ Memory.wf State.reset.receiver.common.frameIn = true := by
  decide

end Sys2Proof.Machine
end

