-- ==== Sys2Proof/Laws/Ops.lean ====
section
/-! SUPPORT. One lemma for each shared operation, saying once everything it can do. -/

namespace Sys2Proof.Machine

theorem andThen_next {o : Outcome} {k : State → Outcome} {t : State} :
    andThen o k = .next t ↔ ∃ s, o = .next s ∧ k s = .next t := by
  cases o <;> simp [andThen]

@[simp] theorem raiseError_eq (who : Role) (e : Error) (s : State) : raiseError who e s = .next (emit (.error who e) s) := rfl

@[simp] theorem discard_eq (s : State) : discard s = .next s := rfl

/-- R35: on an instance that is not halted the guard lets everything through. -/
@[simp] theorem unlessHalted_eq {who : Role} {s : State} (h : (commonOf who s).halted = false) (o : Outcome) :
    unlessHalted who s o = o := by
  simp [unlessHalted, h]

/-- R35: a guarded operation goes on exactly when the instance is not halted and the operation goes on. -/
theorem unlessHalted_next {who : Role} {s t : State} {o : Outcome} :
    unlessHalted who s o = .next t ↔ (commonOf who s).halted = false ∧ o = .next t := by
  unfold unlessHalted
  split <;> rename_i h <;> simp [h]

/-- R282, R35: started, the sender's units work. -/
@[simp] theorem whenStarted_eq {s : State} (hi : s.sender.common.initDone = true) (hh : s.sender.common.halted = false) (o : Outcome) :
    whenStarted s o = o := by
  simp [whenStarted, unlessHalted, commonOf, hi, hh]

/-- R282, R35: an operation of the sender's units goes on exactly when the instance is started and the operation goes on. -/
theorem whenStarted_next {s t : State} {o : Outcome} :
    whenStarted s o = .next t ↔ s.sender.common.halted = false ∧ s.sender.common.initDone = true ∧ o = .next t := by
  unfold whenStarted
  rw [unlessHalted_next]
  refine and_congr Iff.rfl ?_
  split <;> rename_i h <;> simp [h]

/-- R32: the four codes, by their two bits. -/
theorem txState_cases (q : TxState) :
    (txWaiting q = false ∧ q = (if txSeq q then .waitForCall1 else .waitForCall0)) ∨
    (txWaiting q = true ∧ q = waitForAckOf (txSeq q)) := by
  cases q <;> decide

@[simp] theorem txWaiting_waitForAckOf (b : Bool) : txWaiting (waitForAckOf b) = true := by cases b <;> rfl
@[simp] theorem txSeq_waitForAckOf (b : Bool) : txSeq (waitForAckOf b) = b := by cases b <;> rfl
@[simp] theorem txWaiting_waitForCallAfter (b : Bool) : txWaiting (waitForCallAfter b) = false := by cases b <;> rfl
@[simp] theorem txSeq_waitForCallAfter (b : Bool) : txSeq (waitForCallAfter b) = !b := by cases b <;> rfl

theorem chunkSize_le (n : Sender) : chunkSize n ≤ Config.packetSize := Nat.min_le_left _ _

theorem chunkSize_le_left (n : Sender) : chunkSize n ≤ n.txLen - n.txSent := Nat.min_le_right _ _

/-- The 11 bits of `tx_last` hold every chunk size. -/
theorem toNat_ofNat_chunkSize (n : Sender) : (BitVec.ofNat 11 (chunkSize n)).toNat = chunkSize n := by
  have h := chunkSize_le n
  simp only [Config.packetSize] at h
  rw [BitVec.toNat_ofNat]
  exact Nat.mod_eq_of_lt (by omega)

/-! ### EmitChunk (R188) -/

/-- `EmitChunk` goes on exactly when the counters are in order and the chunk's bytes have been written. -/
theorem emitChunk_next {k : Config.Parameters} {q : Bool} {s t : State} :
    emitChunk k q s = .next t ↔
      s.sender.txSent ≤ s.sender.txLen ∧
        ∃ b, s.sender.txBuf.readBytes s.sender.txSent (chunkSize s.sender) = some b ∧ t = emitBytes k q b s := by
  unfold emitChunk
  split
  · simp; omega
  · split
    · rename_i hb; simp [hb]
    · rename_i b hb
      simp only [Host.Outcome.next.injEq, hb, Option.some.injEq, exists_eq_left']
      constructor
      · rintro rfl; exact ⟨by omega, rfl⟩
      · rintro ⟨_, rfl⟩; rfl

/-- The sender's registers after `EmitChunk`. -/
theorem emitBytes_sender (k : Config.Parameters) (q : Bool) (b : List Byte) (s : State) :
    (emitBytes k q b s).sender =
      { s.sender with
        common := { s.sender.common with
          crcAcc := crcAfter k (coveredBytes (buildWith k q false (chunkFinal s.sender) b))
          frameOut := s.sender.common.frameOut.writeBytes 0 (encodeWith k q false (chunkFinal s.sender) b) }
        txSent := s.sender.txSent + chunkSize s.sender
        txLast := BitVec.ofNat 11 (chunkSize s.sender)
        tmrCount := s.sender.timeoutMs
        tmrArmed := true } := rfl

@[simp] theorem emitBytes_receiver (k : Config.Parameters) (q : Bool) (b : List Byte) (s : State) : (emitBytes k q b s).receiver = s.receiver := rfl
@[simp] theorem emitBytes_senderSide (k : Config.Parameters) (q : Bool) (b : List Byte) (s : State) : (emitBytes k q b s).senderSide = s.senderSide := rfl
@[simp] theorem emitBytes_receiverSide (k : Config.Parameters) (q : Bool) (b : List Byte) (s : State) :
    (emitBytes k q b s).receiverSide = s.receiverSide := rfl
@[simp] theorem emitBytes_agenda (k : Config.Parameters) (q : Bool) (b : List Byte) (s : State) : (emitBytes k q b s).agenda = s.agenda := rfl
@[simp] theorem emitBytes_free (k : Config.Parameters) (q : Bool) (b : List Byte) (s : State) : (emitBytes k q b s).free = s.free + 1 := rfl
@[simp] theorem emitBytes_unitCall (k : Config.Parameters) (q : Bool) (b : List Byte) (s : State) : (emitBytes k q b s).unitCall = s.unitCall := rfl
@[simp] theorem emitBytes_outputs (k : Config.Parameters) (q : Bool) (b : List Byte) (s : State) :
    (emitBytes k q b s).outputs = s.outputs ++
      [.sent .sender (dataEndpoint s.sender) (encodeWith k q false (chunkFinal s.sender) b)] := rfl
theorem emitBytes_inFlight (k : Config.Parameters) (q : Bool) (b : List Byte) (s : State) :
    (emitBytes k q b s).inFlight =
      (send .sender (dataEndpoint s.sender) (encodeWith k q false (chunkFinal s.sender) b) s).inFlight := rfl

/-! ### The Timeout entry (R190) and the acknowledgement (R191) -/

/-- In a `WaitForAck` state the `Timeout` transition is `EmitChunk` after the roll-back; in a `WaitForCall` state it has no effect. -/
theorem takeTimeout_next {k : Config.Parameters} {s t : State} :
    takeTimeout k s = .next t ↔
      (txWaiting s.sender.txState = true ∧ s.sender.txLast.toNat ≤ s.sender.txSent ∧
        emitChunk k (txSeq s.sender.txState) (rollBack s) = .next t) ∨
      (txWaiting s.sender.txState = false ∧ t = s) := by
  unfold takeTimeout
  split
  · rename_i hw
    split
    · simp [hw]; omega
    · simp [hw]; omega
  · rename_i hw
    simp only [Bool.not_eq_true] at hw
    simp [hw, eq_comm]

/-- Everything the acknowledgement does to the sender's registers. -/
theorem takeAck_sender (s : State) :
    (takeAck s).sender =
      if txWaiting s.sender.txState then
        { s.sender with
          tmrArmed := false
          txState := waitForCallAfter (txSeq s.sender.txState)
          txActive := s.sender.txActive && !decide (s.sender.txSent = s.sender.txLen) }
      else s.sender := by
  unfold takeAck finishTransfer
  by_cases hw : txWaiting s.sender.txState <;> by_cases he : s.sender.txSent = s.sender.txLen <;> simp [hw, he]

theorem takeAck_outputs (s : State) :
    (takeAck s).outputs =
      if txWaiting s.sender.txState = true ∧ s.sender.txSent = s.sender.txLen then s.outputs ++ [.done] else s.outputs := by
  unfold takeAck finishTransfer
  by_cases hw : txWaiting s.sender.txState <;> by_cases he : s.sender.txSent = s.sender.txLen <;> simp [hw, he]

@[simp] theorem takeAck_receiver (s : State) : (takeAck s).receiver = s.receiver := by
  unfold takeAck finishTransfer; split <;> [split; skip] <;> rfl
@[simp] theorem takeAck_senderSide (s : State) : (takeAck s).senderSide = s.senderSide := by
  unfold takeAck finishTransfer; split <;> [split; skip] <;> rfl
@[simp] theorem takeAck_receiverSide (s : State) : (takeAck s).receiverSide = s.receiverSide := by
  unfold takeAck finishTransfer; split <;> [split; skip] <;> rfl
@[simp] theorem takeAck_inFlight (s : State) : (takeAck s).inFlight = s.inFlight := by
  unfold takeAck finishTransfer; split <;> [split; skip] <;> rfl
@[simp] theorem takeAck_agenda (s : State) : (takeAck s).agenda = s.agenda := by
  unfold takeAck finishTransfer; split <;> [split; skip] <;> rfl
@[simp] theorem takeAck_free (s : State) : (takeAck s).free = s.free := by
  unfold takeAck finishTransfer; split <;> [split; skip] <;> rfl
@[simp] theorem takeAck_unitCall (s : State) : (takeAck s).unitCall = s.unitCall := by
  unfold takeAck finishTransfer; split <;> [split; skip] <;> rfl

/-! ### The transport (R231) -/

/-- R235: an injector at 0, 0, 0 triggers nothing, whatever is drawn. -/
theorem injectedCopies_zero (d : Config.Draw) (wire : List Byte) : injectedCopies ⟨0, 0, 0⟩ d wire = [wire] := rfl

/-- R240: an injector performs zero, one or two sends. -/
theorem injectedCopies_cases (inj : Injector) (d : Config.Draw) (wire : List Byte) :
    injectedCopies inj d wire = [wire] ∨ injectedCopies inj d wire = [zeroByte wire d.index] ∨
      injectedCopies inj d wire = [] ∨ injectedCopies inj d wire = [wire, wire] := by
  unfold injectedCopies
  split
  · exact .inl rfl
  · rename_i k _
    cases k <;> simp [faultAction]

end Sys2Proof.Machine
end

