-- ==== Sys2Proof/Laws/Receive.lean ====
section
/-! SUPPORT. What the arrival of a datagram can do at the sender and at the receiver, and what one step can do. -/

namespace Sys2Proof.Machine

/-! ### At the sender (R194, R196) -/

/-- The arrival of a datagram at the sender always goes on, in one of three ways. -/
theorem receiveAtSender_cases (k : Config.Parameters) (wire : List Byte) (src : Addr) (s : State) :
    (senderReady s = false ∧ receiveAtSender k wire src s = .next (keepInFlight .sender src wire s)) ∨
    (senderReady s = true ∧ (∀ f, acceptWith k wire = some f → ackMatches f s.sender.txState = false) ∧
      receiveAtSender k wire src s = .next s) ∨
    (senderReady s = true ∧ ∃ f, acceptWith k wire = some f ∧ ackMatches f s.sender.txState = true ∧
      receiveAtSender k wire src s = .next (takeAck (noteAck k wire f s))) := by
  unfold receiveAtSender
  by_cases hr : senderReady s = true
  · simp only [hr, if_true]
    cases ha : acceptWith k wire with
    | none => simp
    | some f => by_cases hm : ackMatches f s.sender.txState = true <;> simp [hm]
  · simp only [hr]; simp

/-- An accepted acknowledgement leaves its bytes in `FRAME_IN` and its checksum in the accumulator, and nothing else. -/
theorem noteAck_sender (k : Config.Parameters) (wire : List Byte) (f : Frame) (s : State) :
    (noteAck k wire f s).sender =
      { s.sender with common := { s.sender.common with
          crcAcc := crcAfter k (coveredBytes f)
          frameIn := Memory.writeBytes [] 0 wire } } := rfl

@[simp] theorem noteAck_receiver (k : Config.Parameters) (wire : List Byte) (f : Frame) (s : State) : (noteAck k wire f s).receiver = s.receiver := rfl
@[simp] theorem noteAck_senderSide (k : Config.Parameters) (wire : List Byte) (f : Frame) (s : State) : (noteAck k wire f s).senderSide = s.senderSide := rfl
@[simp] theorem noteAck_receiverSide (k : Config.Parameters) (wire : List Byte) (f : Frame) (s : State) :
    (noteAck k wire f s).receiverSide = s.receiverSide := rfl
@[simp] theorem noteAck_inFlight (k : Config.Parameters) (wire : List Byte) (f : Frame) (s : State) : (noteAck k wire f s).inFlight = s.inFlight := rfl
@[simp] theorem noteAck_outputs (k : Config.Parameters) (wire : List Byte) (f : Frame) (s : State) : (noteAck k wire f s).outputs = s.outputs := rfl
@[simp] theorem noteAck_agenda (k : Config.Parameters) (wire : List Byte) (f : Frame) (s : State) : (noteAck k wire f s).agenda = s.agenda := rfl
@[simp] theorem noteAck_unitCall (k : Config.Parameters) (wire : List Byte) (f : Frame) (s : State) : (noteAck k wire f s).unitCall = s.unitCall := rfl
@[simp] theorem noteAck_free (k : Config.Parameters) (wire : List Byte) (f : Frame) (s : State) : (noteAck k wire f s).free = s.free := rfl

/-! ### At the receiver (R211, R212, R216, R218) -/

/-- The delivery goes on exactly when every byte of the cycle has been written. -/
theorem deliverBuffer_next {s t : State} :
    deliverBuffer s = .next t ↔
      ∃ bytes, s.receiver.rxBuf.readBytes 0 s.receiver.rxLen = some bytes ∧
        t = mapReceiver clearCycle (emit (.delivered bytes) s) := by
  unfold deliverBuffer
  split
  · rename_i h; simp [h]
  · rename_i b h; simp [h, eq_comm]

/-- What the arrival of a datagram at the receiver can do when it goes on. -/
theorem receiveAtReceiver_cases {k : Config.Parameters} {wire : List Byte} {src : Addr} {s t : State} (h : receiveAtReceiver k wire src s = .next t) :
    (receiverReady s = false ∧ t = keepInFlight .receiver src wire s) ∨
    (receiverReady s = true ∧ acceptWith k wire = none ∧ t = s) ∨
    (receiverReady s = true ∧ ∃ f, acceptWith k wire = some f ∧ overflows s.receiver f = true ∧
      t = emit (.error .receiver .bufferOverflow) s) ∨
    (receiverReady s = true ∧ ∃ f, acceptWith k wire = some f ∧
      (isDuplicate s.receiver f = true ∨ overflows s.receiver f = false) ∧
      (t = sendAck k (sequenceBit f) (takeIn wire src f s) ∨
        deliverBuffer (sendAck k (sequenceBit f) (takeIn wire src f s)) = .next t)) := by
  unfold receiveAtReceiver at h
  by_cases hr : receiverReady s = true
  · rw [if_pos hr] at h
    cases ha : acceptWith k wire with
    | none => simp only [ha, discard_eq, Host.Outcome.next.injEq] at h; exact .inr (.inl ⟨hr, rfl, h.symm⟩)
    | some f =>
      simp only [ha] at h
      unfold acceptAtReceiver at h
      refine .inr (.inr ?_)
      cases hd : isDuplicate s.receiver f <;> cases ho : overflows s.receiver f <;> simp [hd, ho] at h
      · refine .inr ⟨hr, f, rfl, .inr ho, ?_⟩
        split at h
        · exact .inr h
        · cases h; exact .inl rfl
      · exact .inl ⟨hr, f, rfl, ho, h.symm⟩
      · exact .inr ⟨hr, f, rfl, .inl hd, .inl h.symm⟩
      · exact .inr ⟨hr, f, rfl, .inl hd, .inl h.symm⟩
  · rw [if_neg hr] at h
    cases h
    exact .inl ⟨by simpa using hr, rfl⟩

@[simp] theorem isDuplicate_withCommon (n : Receiver) (c : Common) (f : Frame) :
    isDuplicate { n with common := c } f = isDuplicate n f := rfl

/-- The receiver's registers once an accepted frame is taken in. -/
theorem takeIn_receiver (wire : List Byte) (src : Addr) (f : Frame) (s : State) :
    (takeIn wire src f s).receiver =
      { (if isDuplicate s.receiver f then recordPeer src s.receiver else appendPayload f (recordPeer src s.receiver)) with
        common := { s.receiver.common with frameIn := Memory.writeBytes [] 0 wire } } := by
  unfold takeIn
  rw [mapReceiver_receiver, setFrameIn_receiver_receiver, isDuplicate_withCommon]
  split <;> rfl

/-- The receiver's registers once an accepted frame is taken in and acknowledged. -/
theorem sendAck_takeIn_receiver (k : Config.Parameters) (wire : List Byte) (src : Addr) (f : Frame) (s : State) :
    (sendAck k (sequenceBit f) (takeIn wire src f s)).receiver =
      { (if isDuplicate s.receiver f then recordPeer src s.receiver else appendPayload f (recordPeer src s.receiver)) with
        common := { s.receiver.common with
          crcAcc := crcAfter k (coveredBytes (buildWith k (sequenceBit f) true false []))
          frameIn := Memory.writeBytes [] 0 wire
          frameOut := s.receiver.common.frameOut.writeBytes 0 (encodeWith k (sequenceBit f) true false []) } } := by
  unfold sendAck
  rw [send_receiver, writeFrame_receiver_receiver, takeIn_receiver]

@[simp] theorem sendAck_sender (k : Config.Parameters) (q : Bool) (s : State) : (sendAck k q s).sender = s.sender := rfl
@[simp] theorem sendAck_agenda (k : Config.Parameters) (q : Bool) (s : State) : (sendAck k q s).agenda = s.agenda := rfl
@[simp] theorem sendAck_unitCall (k : Config.Parameters) (q : Bool) (s : State) : (sendAck k q s).unitCall = s.unitCall := rfl
@[simp] theorem sendAck_senderSide (k : Config.Parameters) (q : Bool) (s : State) : (sendAck k q s).senderSide = s.senderSide := rfl
@[simp] theorem sendAck_receiverSide (k : Config.Parameters) (q : Bool) (s : State) : (sendAck k q s).receiverSide = s.receiverSide := rfl
@[simp] theorem sendAck_outputs (k : Config.Parameters) (q : Bool) (s : State) :
    (sendAck k q s).outputs = s.outputs ++ [.sent .receiver (ackEndpoint s.receiver) (encodeWith k q true false [])] := rfl
@[simp] theorem takeIn_sender (wire : List Byte) (src : Addr) (f : Frame) (s : State) : (takeIn wire src f s).sender = s.sender := rfl
@[simp] theorem takeIn_agenda (wire : List Byte) (src : Addr) (f : Frame) (s : State) : (takeIn wire src f s).agenda = s.agenda := rfl
@[simp] theorem takeIn_unitCall (wire : List Byte) (src : Addr) (f : Frame) (s : State) : (takeIn wire src f s).unitCall = s.unitCall := rfl
@[simp] theorem takeIn_senderSide (wire : List Byte) (src : Addr) (f : Frame) (s : State) :
    (takeIn wire src f s).senderSide = s.senderSide := rfl
@[simp] theorem takeIn_receiverSide (wire : List Byte) (src : Addr) (f : Frame) (s : State) :
    (takeIn wire src f s).receiverSide = s.receiverSide := rfl
@[simp] theorem takeIn_outputs (wire : List Byte) (src : Addr) (f : Frame) (s : State) :
    (takeIn wire src f s).outputs = s.outputs := rfl
@[simp] theorem takeIn_inFlight (wire : List Byte) (src : Addr) (f : Frame) (s : State) :
    (takeIn wire src f s).inFlight = s.inFlight := rfl
@[simp] theorem takeIn_free (wire : List Byte) (src : Addr) (f : Frame) (s : State) : (takeIn wire src f s).free = s.free := rfl

/-! ### Starting an operation (R223) -/

/-- A datagram that decodes to nothing is examined like any other. -/
@[simp] theorem runUndecoded_datagram (k : Config.Parameters) (dest : Role) (src : Addr) (wire : List Byte) (why : DecodeError)
    (s : State) : runUndecoded k (.datagram dest src wire) why s = receiveAt k dest wire src s := rfl

theorem performBy_ok {ex : Instr → State → Outcome} {k : Config.Parameters} {r : Request} {i : Instr} {s : State}
    (h : decode r = .ok i) : performBy ex k r s = ex i s := by
  simp [performBy, h]

theorem neverByItself_ok {r : Request} {i : Instr} (h : decode r = .ok i) : neverByItself r = !startable i := by
  simp [neverByItself, h]

theorem arrivalOf_op {who : Role} {bytes : List Byte} {i : Instr} (h : decode (.op who bytes) = .ok i) :
    arrivalOf (.op who bytes) = arrivalOfInstr i := by
  simp [arrivalOf, h, Except.toOption]

/-- An operation that is no arrival and that agents start is performed. -/
theorem startBy_ok {ex : Instr → State → Outcome} {k : Config.Parameters} {r : Request} {i : Instr} {s : State}
    (ha : arrivalOf r = none) (h : decode r = .ok i) (hs : startable i = true) : startBy ex k r s = ex i s := by
  simp [startBy, ha, neverByItself_ok h, hs, performBy_ok h]

/-- R177, R223: no event starts the operations that are never by themselves. -/
theorem startBy_never {ex : Instr → State → Outcome} {k : Config.Parameters} {r : Request} {i : Instr} {s : State}
    (ha : arrivalOf r = none) (h : decode r = .ok i) (hs : startable i = false) :
    startBy ex k r s = .refused (.notEnabled .neverByItself) := by
  simp [startBy, ha, neverByItself_ok h, hs]

/-- What an arrival that goes on does. -/
theorem arriveBy_next {ex : Instr → State → Outcome} {k : Config.Parameters} {r : Request} {a : Arrival} {s t : State} :
    arriveBy ex k r a s = .next t ↔
      inTransit a s = true ∧
        (((sideOf a.dest s).inboundUp = true ∧ performBy ex k r { s with inFlight := s.inFlight.erase (arriving a s) } = .next t) ∨
          ((sideOf a.dest s).inboundUp = false ∧ t = s)) := by
  unfold arriveBy
  split
  · rename_i hi
    split <;> rename_i hl <;> simp [hi, hl, eq_comm]
  · rename_i hi; simp [hi]

/-! ### One step -/

theorem step_of_unitCall {s : State} {r : Request} (h : s.unitCall = some r) :
    step s = performBy exec hardware r { s with unitCall := none } := by
  simp [step, stepBy, h]

theorem step_of_agenda_nil {s : State} (hu : s.unitCall = none) (h : s.agenda = []) : step s = spontaneousBy exec s := by
  simp [step, stepBy, hu, nextEvent, h]

theorem step_of_agenda_cons {s : State} {e : Event} {rest : List Event} (hu : s.unitCall = none) (h : s.agenda = e :: rest) :
    step s = eventBy exec hardware e { s with agenda := rest } := by
  simp [step, stepBy, hu, nextEvent, h]

end Sys2Proof.Machine
end

