-- ==== Sys2Proof/Laws/Arrival.lean ====
section
/-! SUPPORT. The arrival a request is, by its bytes and by its instruction; and that no operation of the block starts another one later. -/

namespace Sys2Proof.Machine

/-- R91: the prefix of a frame's wire bytes is its three header fields. -/
theorem framePrefix_frameWire (f : Frame) :
    framePrefix (frameWire f) = f.seq.toNat * 65536 + f.ack.toNat * 256 + f.fin.toNat := by
  have hs := f.seq.isLt
  rw [frameWire_eq]
  simp only [framePrefix, slice, be, List.cons_append, List.nil_append, List.drop_zero, List.take_succ_cons, List.take_zero, fromBe,
    BitVec.toNat_ofNat, List.length_cons, List.length_nil]
  omega

/-- R90, R99: a frame whose prefix is that of a kind has that kind's fields. -/
theorem fields_of_framePrefix {wire : List Byte} {f : Frame} (h : parseFrame wire = .ok f) :
    framePrefix wire = f.seq.toNat * 65536 + f.ack.toNat * 256 + f.fin.toNat := by
  rw [← framePrefix_frameWire f, (frameWire_of_parseFrame h).1]

/-- R194, R212: what a request that decodes brings is the arrival its instruction is: the same instance, source and bytes. -/
theorem arrivalOf_decoded {r : Request} {i : Instr} (h : decode r = .ok i) : arrivalOf r = arrivalOfInstr i := by
  cases r with
  | op who bytes => exact arrivalOf_op h
  | datagram dest src wire =>
    simp only [decode, decodeFrame] at h
    split at h
    · cases h
    rename_i f hp
    have hw := (frameWire_of_parseFrame hp).1
    have hf := fields_of_framePrefix hp
    have hs := f.seq.isLt
    have ha := f.ack.isLt
    have he := f.fin.isLt
    obtain ⟨seq, ack, fin, cks, payload⟩ := f
    simp only at hf hs ha he
    have key : ∀ (s : BitVec 32) (a e : Byte), framePrefix wire = s.toNat * 65536 + a.toNat * 256 + e.toNat →
        wire = frameWire ⟨s, a, e, cks, payload⟩ := by
      intro s a e hpre
      have h1 := a.isLt
      have h2 := e.isLt
      rw [← hw, show seq = s from BitVec.eq_of_toNat_eq (by omega), show ack = a from BitVec.eq_of_toNat_eq (by omega),
        show fin = e from BitVec.eq_of_toNat_eq (by omega)]
    split at h <;> cases h <;> rename_i hpre <;> exact congrArg (fun w => some (Arrival.mk dest src w)) (key _ _ _ hpre)

/-! ### No operation schedules another (log 6) -/

theorem takeTimeout_unitCall {k : Config.Parameters} {s t : State} (h : takeTimeout k s = .next t) : t.unitCall = s.unitCall := by
  rcases takeTimeout_next.1 h with ⟨-, -, he⟩ | ⟨-, rfl⟩
  · obtain ⟨-, b, -, rfl⟩ := emitChunk_next.1 he
    simp
  · rfl

theorem receiveAt_unitCall {k : Config.Parameters} {dest : Role} {wire : List Byte} {src : Addr} {s t : State}
    (h : receiveAt k dest wire src s = .next t) : t.unitCall = s.unitCall := by
  cases dest with
  | sender =>
    rcases receiveAtSender_cases k wire src s with ⟨-, e⟩ | ⟨-, -, e⟩ | ⟨-, f, -, -, e⟩ <;>
      rw [receiveAt, e] at h <;> cases h <;> simp
  | receiver =>
    rcases receiveAtReceiver_cases h with ⟨-, rfl⟩ | ⟨-, -, rfl⟩ | ⟨-, f, -, -, rfl⟩ | ⟨-, f, -, -, rfl | hd⟩ <;> try simp
    obtain ⟨bytes, -, rfl⟩ := deliverBuffer_next.1 hd
    simp

/-- No instruction puts an operation in `unitCall`. -/
theorem exec_unitCall {i : Instr} {s t : State} (h : exec i s = .next t) : t.unitCall = s.unitCall := by
  cases i with
  | data0 => exact receiveAt_unitCall h
  | data0f => exact receiveAt_unitCall h
  | ack0 => exact receiveAt_unitCall h
  | ack0f => exact receiveAt_unitCall h
  | data1 => exact receiveAt_unitCall h
  | data1f => exact receiveAt_unitCall h
  | ack1 => exact receiveAt_unitCall h
  | ack1f => exact receiveAt_unitCall h
  | txRecv wire src => exact receiveAt_unitCall (dest := .sender) h
  | rxRecv wire src => exact receiveAt_unitCall (dest := .receiver) h
  | reset who => cases who <;> cases h <;> rfl
  | cfgInit who ok =>
    simp only [exec, execCfgInit] at h
    split at h
    · split at h <;> cases h <;> cases who <;> rfl
    · cases h
  | crcInit who => obtain ⟨-, h⟩ := unlessHalted_next.1 h; cases h; cases who <;> rfl
  | crcUpdate who => obtain ⟨-, h⟩ := unlessHalted_next.1 h; cases h; cases who <;> rfl
  | crcRead who => obtain ⟨-, h⟩ := unlessHalted_next.1 h; cases h; rfl
  | crcCompute who => obtain ⟨-, h⟩ := unlessHalted_next.1 h; cases h; cases who <;> rfl
  | codecEncode who =>
    obtain ⟨-, h⟩ := unlessHalted_next.1 h
    split at h <;> cases h <;> cases who <;> rfl
  | codecDecode who =>
    obtain ⟨-, h⟩ := unlessHalted_next.1 h
    split at h <;> cases h <;> rfl
  | codecIsValid who => obtain ⟨-, h⟩ := unlessHalted_next.1 h; cases h; cases who <;> rfl
  | codecIsWellFormed who => obtain ⟨-, h⟩ := unlessHalted_next.1 h; cases h; rfl
  | tmrStart => obtain ⟨-, -, h⟩ := whenStarted_next.1 h; cases h; rfl
  | tmrCancel => obtain ⟨-, -, h⟩ := whenStarted_next.1 h; cases h; rfl
  | tmrTick => obtain ⟨-, h⟩ := unlessHalted_next.1 h; cases h; rfl
  | tmrExpire =>
    obtain ⟨-, h⟩ := unlessHalted_next.1 h
    split at h
    · exact (takeTimeout_unitCall h).trans (cancelTimer_unitCall s)
    · cases h
  | txLoad =>
    simp only [exec, execTxLoad] at h
    split at h
    · cases h
    · split at h <;> cases h <;> rfl
  | txSendPacket =>
    simp only [exec, execTxSendPacket, sendPacketWith] at h
    split at h
    · cases h; rfl
    · split at h
      · obtain ⟨u, he, h⟩ := andThen_next.1 h
        cases h
        obtain ⟨-, b, -, rfl⟩ := emitChunk_next.1 he
        simp
      · cases h
  | txTimeout => exact takeTimeout_unitCall (whenStarted_next.1 h).2.2
  | txPacketReceived => obtain ⟨-, -, h⟩ := whenStarted_next.1 h; cases h; simp

end Sys2Proof.Machine
end

