-- ==== Sys2Proof/Laws/PerInstr.lean ====
section
/-! SUPPORT. One lemma per instruction: its encoding is presented to the instance that performs it, and begins with the code the opcode
table gives its row (R91, R99, R108). -/

namespace Sys2Proof.Laws.EncodeHeader

open Sys2Proof.Machine (be framePrefix frameWire frameWire_length)
open Sys2Proof.Safety (performer)

/-- A request that begins with the code of a table row: a label in front of an operation's operand bytes, a 48-bit prefix in front of
a datagram of legal length. -/
def carries (r : Request) (who : Role) (nbits code : Nat) : Prop :=
  match r with
  | .op w bytes => w = who ∧ nbits = 8 ∧ bytes.head? = some (BitVec.ofNat 8 code)
  | .datagram w _ wire => w = who ∧ nbits = 48 ∧ framePrefix wire = code ∧ 14 ≤ wire.length ∧ wire.length ≤ 1414

/-- spec/opcode_table.json: how many bits a row's code has, and the code. -/
def row (i : Instr) : Nat × Nat :=
  match i with
  | .data0 _ _ _ _ => (48, 0x000000000000)
  | .data0f _ _ _ _ => (48, 0x000000000001)
  | .ack0 _ _ _ _ => (48, 0x000000000100)
  | .ack0f _ _ _ _ => (48, 0x000000000101)
  | .data1 _ _ _ _ => (48, 0x000000010000)
  | .data1f _ _ _ _ => (48, 0x000000010001)
  | .ack1 _ _ _ _ => (48, 0x000000010100)
  | .ack1f _ _ _ _ => (48, 0x000000010101)
  | .reset _ => (8, 0x00)
  | .cfgInit _ _ => (8, 0x01)
  | .crcInit _ => (8, 0x10)
  | .crcUpdate _ _ => (8, 0x11)
  | .crcRead _ => (8, 0x12)
  | .crcCompute _ _ => (8, 0x13)
  | .codecEncode _ _ _ _ _ => (8, 0x20)
  | .codecDecode _ _ => (8, 0x21)
  | .codecIsValid _ _ => (8, 0x22)
  | .codecIsWellFormed _ _ => (8, 0x23)
  | .tmrStart _ => (8, 0x30)
  | .tmrCancel => (8, 0x31)
  | .tmrTick => (8, 0x32)
  | .tmrExpire => (8, 0x33)
  | .txLoad _ _ => (8, 0x40)
  | .txSendPacket => (8, 0x41)
  | .txTimeout => (8, 0x42)
  | .txPacketReceived => (8, 0x43)
  | .txRecv _ _ => (8, 0x44)
  | .rxRecv _ _ => (8, 0x50)

/-- What each lemma below says of its instruction. -/
def Statement (i : Instr) : Prop := i.wellFormed = true → carries (encode i) (performer i) (row i).1 (row i).2

/-- The four frame kinds of each sequence bit share this: the prefix of the wire frame, and its length. -/
theorem frame_carries (dest : Role) (src : Addr) (seq : BitVec 32) (ack fin : Byte) (cks : BitVec 64) (payload : List Byte)
    (code : Nat) (hcode : framePrefix (be 4 seq.toNat ++ [ack, fin]) = code) (h : payloadFits payload = true) :
    carries (encodeFrame dest src seq ack fin cks payload) dest 48 code := by
  have hlen : payload.length ≤ 1400 := by simpa [payloadFits] using h
  refine ⟨rfl, rfl, ?_, ?_, ?_⟩
  · rw [← hcode]; rfl
  · rw [frameWire_length]; omega
  · rw [frameWire_length]; dsimp only; omega

theorem data0 (dest : Role) (src : Addr) (cks : BitVec 64) (payload : List Byte) : Statement (.data0 dest src cks payload) := fun h =>
  frame_carries dest src 0 0 0 cks payload _ (by rfl) h

theorem data0f (dest : Role) (src : Addr) (cks : BitVec 64) (payload : List Byte) : Statement (.data0f dest src cks payload) := fun h =>
  frame_carries dest src 0 0 1 cks payload _ (by rfl) h

theorem ack0 (dest : Role) (src : Addr) (cks : BitVec 64) (payload : List Byte) : Statement (.ack0 dest src cks payload) := fun h =>
  frame_carries dest src 0 1 0 cks payload _ (by rfl) h

theorem ack0f (dest : Role) (src : Addr) (cks : BitVec 64) (payload : List Byte) : Statement (.ack0f dest src cks payload) := fun h =>
  frame_carries dest src 0 1 1 cks payload _ (by rfl) h

theorem data1 (dest : Role) (src : Addr) (cks : BitVec 64) (payload : List Byte) : Statement (.data1 dest src cks payload) := fun h =>
  frame_carries dest src 1 0 0 cks payload _ (by rfl) h

theorem data1f (dest : Role) (src : Addr) (cks : BitVec 64) (payload : List Byte) : Statement (.data1f dest src cks payload) := fun h =>
  frame_carries dest src 1 0 1 cks payload _ (by rfl) h

theorem ack1 (dest : Role) (src : Addr) (cks : BitVec 64) (payload : List Byte) : Statement (.ack1 dest src cks payload) := fun h =>
  frame_carries dest src 1 1 0 cks payload _ (by rfl) h

theorem ack1f (dest : Role) (src : Addr) (cks : BitVec 64) (payload : List Byte) : Statement (.ack1f dest src cks payload) := fun h =>
  frame_carries dest src 1 1 1 cks payload _ (by rfl) h

theorem reset (who : Role) : Statement (.reset who) := fun _ => ⟨rfl, rfl, rfl⟩

theorem cfgInit (who : Role) (ok : Bool) : Statement (.cfgInit who ok) := fun _ => ⟨rfl, rfl, rfl⟩

theorem crcInit (who : Role) : Statement (.crcInit who) := fun _ => ⟨rfl, rfl, rfl⟩

theorem crcUpdate (who : Role) (b : Byte) : Statement (.crcUpdate who b) := fun _ => ⟨rfl, rfl, rfl⟩

theorem crcRead (who : Role) : Statement (.crcRead who) := fun _ => ⟨rfl, rfl, rfl⟩

theorem crcCompute (who : Role) (bytes : List Byte) : Statement (.crcCompute who bytes) := fun _ => ⟨rfl, rfl, rfl⟩

theorem codecEncode (who : Role) (s : Bool) (a : Bool) (f : Bool) (payload : List Byte) : Statement (.codecEncode who s a f payload) := fun _ => ⟨rfl, rfl, rfl⟩

theorem codecDecode (who : Role) (wire : List Byte) : Statement (.codecDecode who wire) := fun _ => ⟨rfl, rfl, rfl⟩

theorem codecIsValid (who : Role) (frame : Frame) : Statement (.codecIsValid who frame) := fun _ => ⟨rfl, rfl, rfl⟩

theorem codecIsWellFormed (who : Role) (frame : Frame) : Statement (.codecIsWellFormed who frame) := fun _ => ⟨rfl, rfl, rfl⟩

theorem tmrStart (d : BitVec 32) : Statement (.tmrStart d) := fun _ => ⟨rfl, rfl, rfl⟩

theorem tmrCancel : Statement .tmrCancel := fun _ => ⟨rfl, rfl, rfl⟩

theorem tmrTick : Statement .tmrTick := fun _ => ⟨rfl, rfl, rfl⟩

theorem tmrExpire : Statement .tmrExpire := fun _ => ⟨rfl, rfl, rfl⟩

theorem txLoad (buf : List Byte) (dest : Addr) : Statement (.txLoad buf dest) := fun _ => ⟨rfl, rfl, rfl⟩

theorem txSendPacket : Statement .txSendPacket := fun _ => ⟨rfl, rfl, rfl⟩

theorem txTimeout : Statement .txTimeout := fun _ => ⟨rfl, rfl, rfl⟩

theorem txPacketReceived : Statement .txPacketReceived := fun _ => ⟨rfl, rfl, rfl⟩

theorem txRecv (wire : List Byte) (src : Addr) : Statement (.txRecv wire src) := fun _ => ⟨rfl, rfl, rfl⟩

theorem rxRecv (wire : List Byte) (src : Addr) : Statement (.rxRecv wire src) := fun _ => ⟨rfl, rfl, rfl⟩

end Sys2Proof.Laws.EncodeHeader
end

