-- ==== Sys2Proof/Laws/Variant.lean ====
section
/-! SUPPORT. The machine of Variant.lean, at the checksum of this hardware, is the machine. -/

namespace Sys2Proof.Machine

theorem execWith_hardware (i : Instr) (s : State) : execWith hardware i s = exec i s := by cases i <;> rfl

theorem stepWith_hardware (s : State) : stepWith hardware s = step s := by
  unfold stepWith step
  rw [show execWith hardware = exec from funext fun i => funext fun s => execWith_hardware i s]

end Sys2Proof.Machine
end

