-- ==== Sys2Proof/Tests/Slice0.lean ====
section
/-! SUPPORT. Tests. Expected values are from spec/95_test_vectors.md and the rules' own examples, never from the model. First the checks
of WellFormed, then one word of every row, then vectors, then a witness for the hypotheses of every statement. -/

namespace Sys2Proof.Tests

open Sys2Proof.Machine Sys2Proof.Safety

/- One theorem at a time: evaluated side by side, these many kernel evaluations ask for more threads than the memory limit allows. -/
set_option Elab.async false

/-! ### WellFormed: an ill-formed term for each check (R90, R97, R153) -/

def tooLong : List Byte := List.replicate 1401 0

theorem test_illFormed_data0 : (Instr.data0 .receiver 7 0 tooLong).wellFormed = false := by decide +kernel
theorem test_illFormed_data0f : (Instr.data0f .receiver 7 0 tooLong).wellFormed = false := by decide +kernel
theorem test_illFormed_ack0 : (Instr.ack0 .receiver 7 0 tooLong).wellFormed = false := by decide +kernel
theorem test_illFormed_ack0f : (Instr.ack0f .receiver 7 0 tooLong).wellFormed = false := by decide +kernel
theorem test_illFormed_data1 : (Instr.data1 .receiver 7 0 tooLong).wellFormed = false := by decide +kernel
theorem test_illFormed_data1f : (Instr.data1f .receiver 7 0 tooLong).wellFormed = false := by decide +kernel
theorem test_illFormed_ack1 : (Instr.ack1 .receiver 7 0 tooLong).wellFormed = false := by decide +kernel
theorem test_illFormed_ack1f : (Instr.ack1f .receiver 7 0 tooLong).wellFormed = false := by decide +kernel
theorem test_illFormed_codecIsValid : (Instr.codecIsValid .sender ⟨0, 0, 0, 0, tooLong⟩).wellFormed = false := by decide +kernel
theorem test_illFormed_codecIsWellFormed : (Instr.codecIsWellFormed .sender ⟨0, 0, 0, 0, tooLong⟩).wellFormed = false := by decide +kernel
theorem test_wellFormed_limit : (Instr.data0 .receiver 7 0 (List.replicate 1400 0)).wellFormed = true := by decide +kernel

/-! ### Decoding: a word of every row, written out from R99 and R108 -/

theorem test_decode_data0 : decode (.datagram .receiver 7 [0, 0, 0, 0, 0, 0, 0, 0, 0, 0, 0xB1, 0xC2, 0xA1, 0xA3]) = .ok (.data0 .receiver 7 0xB1C2A1A3 []) := by decide +kernel
theorem test_decode_data0f : decode (.datagram .receiver 7 [0, 0, 0, 0, 0, 1, 0, 0, 0, 0, 0xC6, 0xC5, 0x91, 0x35]) = .ok (.data0f .receiver 7 0xC6C59135 []) := by decide +kernel
theorem test_decode_ack0 : decode (.datagram .sender 7 [0, 0, 0, 0, 1, 0, 0, 0, 0, 0, 0xA8, 0xD9, 0x90, 0xE2]) = .ok (.ack0 .sender 7 0xA8D990E2 []) := by decide +kernel
theorem test_decode_ack0f : decode (.datagram .sender 7 [0, 0, 0, 0, 1, 1, 0, 0, 0, 0, 0xDF, 0xDE, 0xA0, 0x74]) = .ok (.ack0f .sender 7 0xDFDEA074 []) := by decide +kernel
theorem test_decode_data1 : decode (.datagram .receiver 7 [0, 0, 0, 1, 0, 0, 0, 0, 0, 0, 0xB0, 0x00, 0xCB, 0x94]) = .ok (.data1 .receiver 7 0xB000CB94 []) := by decide +kernel
theorem test_decode_data1f : decode (.datagram .receiver 7 [0, 0, 0, 1, 0, 1, 0, 0, 0, 0, 0xC7, 0x07, 0xFB, 0x02]) = .ok (.data1f .receiver 7 0xC707FB02 []) := by decide +kernel
theorem test_decode_ack1 : decode (.datagram .sender 7 [0, 0, 0, 1, 1, 0, 0, 0, 0, 0, 0xA9, 0x1B, 0xFA, 0xD5]) = .ok (.ack1 .sender 7 0xA91BFAD5 []) := by decide +kernel
theorem test_decode_ack1f : decode (.datagram .sender 7 [0, 0, 0, 1, 1, 1, 0, 0, 0, 0, 0xDE, 0x1C, 0xCA, 0x43]) = .ok (.ack1f .sender 7 0xDE1CCA43 []) := by decide +kernel
theorem test_decode_reset : decode (.op .receiver [0x00]) = .ok (.reset .receiver) := by decide +kernel
theorem test_decode_cfgInit : decode (.op .sender [0x01, 1]) = .ok (.cfgInit .sender true) := by decide +kernel
theorem test_decode_crcInit : decode (.op .sender [0x10]) = .ok (.crcInit .sender) := by decide +kernel
theorem test_decode_crcUpdate : decode (.op .receiver [0x11, 0x61]) = .ok (.crcUpdate .receiver 0x61) := by decide +kernel
theorem test_decode_crcRead : decode (.op .sender [0x12]) = .ok (.crcRead .sender) := by decide +kernel
theorem test_decode_crcCompute : decode (.op .sender [0x13, 0x61, 0x62]) = .ok (.crcCompute .sender [0x61, 0x62]) := by decide +kernel
theorem test_decode_codecEncode : decode (.op .sender [0x20, 1, 0, 1, 0x6E]) = .ok (.codecEncode .sender true false true [0x6E]) := by decide +kernel
theorem test_decode_codecDecode : decode (.op .receiver [0x21, 5, 6]) = .ok (.codecDecode .receiver [5, 6]) := by decide +kernel
theorem test_decode_codecIsValid : decode (.op .sender [0x22, 0, 0, 0, 1, 1, 0, 0, 0, 0, 0, 0xA9, 0x1B, 0xFA, 0xD5]) = .ok (.codecIsValid .sender ⟨1, 1, 0, 0xA91BFAD5, []⟩) := by decide +kernel
theorem test_decode_codecIsWellFormed : decode (.op .sender [0x23, 0, 0, 1, 0, 0, 0, 0, 0, 0, 0, 9, 0x7E, 0xC6, 0xC6, 3]) = .ok (.codecIsWellFormed .sender ⟨256, 0, 0, 0x097EC6C6, [3]⟩) := by decide +kernel
theorem test_decode_tmrStart : decode (.op .sender [0x30, 0, 0, 1, 0x2C]) = .ok (.tmrStart 300) := by decide +kernel
theorem test_decode_tmrCancel : decode (.op .sender [0x31]) = .ok .tmrCancel := by decide +kernel
theorem test_decode_tmrTick : decode (.op .sender [0x32]) = .ok .tmrTick := by decide +kernel
theorem test_decode_tmrExpire : decode (.op .sender [0x33]) = .ok .tmrExpire := by decide +kernel
theorem test_decode_txLoad : decode (.op .sender [0x40, 10, 0, 0, 2, 0x61, 0x62]) = .ok (.txLoad [0x61, 0x62] 0x0A000002) := by decide +kernel
theorem test_decode_txSendPacket : decode (.op .sender [0x41]) = .ok .txSendPacket := by decide +kernel
theorem test_decode_txTimeout : decode (.op .sender [0x42]) = .ok .txTimeout := by decide +kernel
theorem test_decode_txPacketReceived : decode (.op .sender [0x43]) = .ok .txPacketReceived := by decide +kernel
theorem test_decode_txRecv : decode (.op .sender [0x44, 0, 0, 0, 9, 1, 2]) = .ok (.txRecv [1, 2] 9) := by decide +kernel
theorem test_decode_rxRecv : decode (.op .receiver [0x50, 0, 0, 0, 9, 1, 2]) = .ok (.rxRecv [1, 2] 9) := by decide +kernel
theorem test_decode_noOperation : decode (.op .sender [0x45]) = .error .noOperation := by decide +kernel
theorem test_decode_seq2 :
    decode (.datagram .receiver 7 [0, 0, 0, 2, 0, 0, 0, 0, 0, 0, 0xB2, 0x46, 0x75, 0xCD]) = .error .illFormed := by decide +kernel
theorem test_decode_short :
    decode (.datagram .receiver 7 [0, 0, 0, 0, 1, 0, 0, 0, 0, 0, 0xA8, 0xD9, 0x90]) = .error (.malformed .tooShort) := by
  decide +kernel

/-! ### Small states -/

/-- Both instances started (R283); the sender at address 1, the receiver at address 2. -/
def started : State :=
  { State.reset with
    sender := { State.reset.sender with
      common := { State.reset.sender.common with initDone := true, portData := some 5001, portAck := some 5002, addr := 1 } }
    receiver := { State.reset.receiver with
      common := { State.reset.receiver.common with initDone := true, portData := some 5001, portAck := some 5002, addr := 2 } } }

/-- Ports supplied, CFG.INIT not performed. -/
def configured : State :=
  { started with
    sender := { started.sender with common := { started.sender.common with initDone := false } }
    receiver := { started.receiver with common := { started.receiver.common with initDone := false } } }

/-- "abc" loaded for address 2 (V-S2). -/
def loaded : State :=
  { started with sender := { started.sender with
      txBuf := [(0, 0x61), (1, 0x62), (2, 0x63)], txLen := 3, txDest := 2, txActive := true } }

/-- The chunk "abc" in flight in `WaitForAck0`, its timer due. -/
def waiting : State :=
  { loaded with sender := { loaded.sender with
      txSent := 3, txLast := 3, txState := .waitForAck0, tmrArmed := true, tmrCount := 0 } }

/-- A sender in `WaitForAck1` with a chunk left to send. -/
def waiting1 : State :=
  { waiting with sender := { waiting.sender with txState := .waitForAck1, txLen := 4 } }

/-- A sender in `WaitForCall1` with a chunk in hand. -/
def calling1 : State := { loaded with sender := { loaded.sender with txState := .waitForCall1 } }

/-- Three bytes received (V-R3). -/
def partly : State :=
  { started with receiver := { started.receiver with rxBuf := [(0, 0x61), (1, 0x62), (2, 0x63)], rxLen := 3 } }

/-- The same with `RX_DEDUP = 1`, the last accepted bit 0. -/
def dedup : State := { partly with receiver := { partly.receiver with rxDedup := true, rxLastValid := true, rxLastSeq := false } }

/-- The same with `RX_BUF_MAX = 4` (V-R5). -/
def bounded : State := { partly with receiver := { partly.receiver with rxBufMax := some 4 } }

/-- Both instances halted (V-X1). -/
def haltedBoth : State :=
  { started with
    sender := { started.sender with common := { started.sender.common with halted := true } }
    receiver := { started.receiver with common := { started.receiver.common with halted := true } } }

/-- The three bytes "abc". -/
def abc : List Byte := [0x61, 0x62, 0x63]

/-- A datagram for the sender, one for the receiver and one for neither in flight, and the delivery of one scheduled. -/
def delivering (k : Nat) : State :=
  { waiting with
    agenda := [.deliver k]
    inFlight := [⟨⟨1, some 5002⟩, 2, abc⟩, ⟨⟨2, some 5001⟩, 1, abc⟩, ⟨⟨7, some 5001⟩, 1, abc⟩] }

/-- A datagram in flight for each instance, and its arrival scheduled. -/
def arrivingAt (dest : Role) (wire : List Byte) : State :=
  { waiting with
    agenda := [.request (.datagram dest 9 wire)]
    inFlight := [⟨⟨1, some 5002⟩, 9, wire⟩, ⟨⟨2, some 5001⟩, 9, wire⟩] }

/-- Whether an outcome is a next state that meets a test. -/
def nextIs (o : Outcome) (p : State → Bool) : Bool :=
  match o with
  | .next t => p t
  | _ => false

/-- Whether an outcome is the refusal of a guard. -/
def refusedBy (g : Guard) (o : Outcome) : Bool :=
  match o with
  | .refused (.notEnabled h) => decide (h = g)
  | _ => false

/-! ### Vectors -/

theorem test_crc_check : crc32 [0x31, 0x32, 0x33, 0x34, 0x35, 0x36, 0x37, 0x38, 0x39] = 0xCBF43926 := by decide +kernel
theorem test_crc_ff : crc32 [0xFF] = 0xFF000000 := by decide +kernel
theorem test_crc_table : crcTable.length = 256 ∧ crcTable[255]? = some 0x2D02EF8D := by decide +kernel

/-- V-K4. -/
theorem test_crcInit : nextIs (exec (.crcInit .receiver) started) fun t => t.receiver.common.crcAcc == 0xFFFFFFFF := by decide +kernel
/-- V-K2. -/
theorem test_crcUpdate : nextIs (exec (.crcUpdate .sender 0x61) started) fun t => t.sender.common.crcAcc == 0x174841BC := by
  decide +kernel
/-- V-K4. -/
theorem test_crcRead : nextIs (exec (.crcRead .sender) started) fun t => t.outputs == [.result .sender (.crc 0)] := by decide +kernel
/-- V-K3. -/
theorem test_crcCompute : nextIs (exec (.crcCompute .sender abc) started) fun t =>
    t.outputs == [.result .sender (.crc 0x352441C2)] && t.sender.common.crcAcc == 0xCADBBE3D := by decide +kernel
/-- V-C2. -/
theorem test_encode_ndpk : nextIs (exec (.codecEncode .sender true false true [0x6E, 0x64, 0x70, 0x6B]) started) fun t =>
    t.outputs == [.result .sender (.wire [0, 0, 0, 1, 0, 1, 0, 0, 0, 0, 0x19, 0xE5, 0x68, 0x98, 0x6E, 0x64, 0x70, 0x6B])] := by
  decide +kernel
/-- V-C3. -/
theorem test_encode_tooLong : nextIs (exec (.codecEncode .sender false false true tooLong) started) fun t =>
    t.outputs == [.error .sender (.payloadTooLarge 1401)] && t.sender == started.sender := by decide +kernel
/-- V-C4. -/
theorem test_decode_allOnes : nextIs (exec (.codecDecode .sender (List.replicate 14 0xFF)) started) fun t =>
    t.outputs == [.result .sender (.frame ⟨0xFFFFFFFF, 0xFF, 0xFF, 0xFFFFFFFFFFFFFFFF, []⟩)] := by decide +kernel
/-- V-C4. -/
theorem test_decode_1415 : nextIs (exec (.codecDecode .sender (List.replicate 1415 0)) started) fun t =>
    t.outputs == [.error .sender (.malformed .tooLong)] := by decide +kernel
/-- V-C5. -/
theorem test_isValid_ack0 : nextIs (exec (.codecIsValid .sender ⟨0, 1, 0, 0xA8D990E2, []⟩) started) fun t =>
    t.outputs == [.result .sender (.flag true)] := by decide +kernel
/-- V-C5: a sign-extended checksum. -/
theorem test_isValid_signExtended : nextIs (exec (.codecIsValid .sender ⟨0, 1, 0, 0xFFFFFFFFA8D990E2, []⟩) started) fun t =>
    t.outputs == [.result .sender (.flag false)] := by decide +kernel
/-- V-C6. -/
theorem test_isWellFormed_ack2 : nextIs (exec (.codecIsWellFormed .sender ⟨0, 2, 0, 0x83F4C321, []⟩) started) fun t =>
    t.outputs == [.result .sender (.flag false)] := by decide +kernel

/-- V-T1. -/
theorem test_tmrStart : nextIs (exec (.tmrStart 300) started) fun t => t.sender.tmrArmed && t.sender.tmrCount == 300 := by
  decide +kernel
/-- V-T2. -/
theorem test_tmrCancel : nextIs (exec .tmrCancel (startTimer 120 started)) fun t => !t.sender.tmrArmed && t.sender.tmrCount == 120 := by
  decide +kernel
/-- V-T1: no wrap. -/
theorem test_tmrTick_zero : nextIs (exec .tmrTick (startTimer 0 started)) fun t => t.sender.tmrCount == 0 := by decide +kernel
/-- V-T2: no tick when not armed. -/
theorem test_tmrTick_unarmed : nextIs (exec .tmrTick { started with sender := { started.sender with tmrCount := 120 } }) fun t =>
    t.sender.tmrCount == 120 := by decide +kernel
/-- V-T5, with one short chunk. -/
theorem test_tmrExpire : nextIs (exec .tmrExpire waiting) fun t =>
    t.sender.tmrArmed && t.sender.tmrCount == 300 && decide (t.sender.txSent = 3) && t.sender.txLast == 3 &&
      t.sender.txState == .waitForAck0 &&
      t.outputs == [.sent .sender ⟨2, some 5001⟩ [0, 0, 0, 0, 0, 1, 0, 0, 0, 0, 0x94, 0xD0, 0xEB, 0x1B, 0x61, 0x62, 0x63]] := by
  decide +kernel

/-- V-S2. -/
theorem test_txLoad : nextIs (exec (.txLoad abc 2) { started with sender := { started.sender with txState := .waitForCall1 } }) fun t =>
    t.sender == loaded.sender && t.outputs == [.result .sender .accepted] := by decide +kernel
/-- V-S2. -/
theorem test_txLoad_refused : nextIs (exec (.txLoad [0x78, 0x79, 0x7A] 3) loaded) fun t =>
    t.sender == loaded.sender && t.outputs == [.result .sender .refused] := by decide +kernel
/-- V-C2, V-S1. -/
theorem test_txSendPacket : nextIs (exec .txSendPacket calling1) fun t =>
    t.sender.txState == .waitForAck1 && decide (t.sender.txSent = 3) && t.sender.txLast == 3 && t.sender.tmrArmed &&
      t.outputs == [.sent .sender ⟨2, some 5001⟩ [0, 0, 0, 1, 0, 1, 0, 0, 0, 0, 0x5F, 0x8C, 0x38, 0xBE, 0x61, 0x62, 0x63]] := by
  decide +kernel
/-- V-S4: the empty buffer. -/
theorem test_txSendPacket_empty : nextIs (exec .txSendPacket { loaded with sender := { loaded.sender with txBuf := [], txLen := 0 } })
    fun t => decide (t.sender.txSent = 0) && t.sender.txLast == 0 && t.sender.txState == .waitForAck0 &&
      t.outputs == [.sent .sender ⟨2, some 5001⟩ [0, 0, 0, 0, 0, 1, 0, 0, 0, 0, 0xC6, 0xC5, 0x91, 0x35]] := by decide +kernel
/-- R193. -/
theorem test_txTimeout_unlisted : nextIs (exec .txTimeout loaded) fun t => t == loaded := by decide +kernel
/-- R191, R192. -/
theorem test_txPacketReceived : nextIs (exec .txPacketReceived waiting) fun t =>
    t.sender.txState == .waitForCall1 && !t.sender.txActive && !t.sender.tmrArmed && t.outputs == [.done] := by decide +kernel
/-- V-S3: the END flag and the payload are not read. -/
theorem test_txRecv_matching : nextIs (exec (.txRecv [0, 0, 0, 0, 1, 0, 0, 0, 0, 0, 0xC2, 0x70, 0x4C, 0x47, 0x78] 9) waiting) fun t =>
    t.sender.txState == .waitForCall1 && !t.sender.tmrArmed := by decide +kernel
/-- V-S3: the wrong sequence bit. -/
theorem test_txRecv_wrongBit : nextIs (exec (.txRecv [0, 0, 0, 1, 1, 0, 0, 0, 0, 0, 0xA9, 0x1B, 0xFA, 0xD5] 9) waiting) fun t =>
    t == waiting := by decide +kernel
/-- V-S3: `ACK1` in `WaitForAck1`, with data left: no `done`. -/
theorem test_ack1 : nextIs (exec (.ack1 .sender 9 0xA91BFAD5 []) waiting1) fun t =>
    t.sender.txState == .waitForCall0 && t.sender.txActive && t.outputs == [] := by decide +kernel
/-- V-S3. -/
theorem test_ack0f : nextIs (exec (.ack0f .sender 9 0xDFDEA074 []) waiting) fun t => t.sender.txState == .waitForCall1 := by
  decide +kernel
/-- V-S3: a data frame at the sender. -/
theorem test_data0_atSender : nextIs (exec (.data0 .sender 9 0xB1C2A1A3 []) waiting) fun t => t == waiting := by decide +kernel

/-- V-R1, the first row: the append, the acknowledgement, no delivery. -/
theorem test_data1 : nextIs (exec (.data1 .receiver 9 0xE7305FDB abc) started) fun t =>
    t.receiver.rxPeer == 9 && t.receiver.rxPeerValid && decide (t.receiver.rxLen = 3) &&
      t.receiver.rxBuf == [(0, 0x61), (1, 0x62), (2, 0x63)] &&
      t.outputs == [.sent .receiver ⟨9, some 5002⟩ [0, 0, 0, 1, 1, 0, 0, 0, 0, 0, 0xA9, 0x1B, 0xFA, 0xD5]] := by decide +kernel
/-- V-R1, the last row, on three bytes received: the acknowledgement, then the delivery. -/
theorem test_rxRecv_final :
    nextIs (exec (.rxRecv [0, 0, 0, 0, 0, 1, 0, 0, 0, 0, 0xBF, 0x92, 0x63, 0x2C, 0x6E, 0x64, 0x70, 0x6B] 9) partly) fun t =>
      decide (t.receiver.rxLen = 0) &&
        t.outputs == [.sent .receiver ⟨9, some 5002⟩ [0, 0, 0, 0, 1, 0, 0, 0, 0, 0, 0xA8, 0xD9, 0x90, 0xE2],
          .delivered [0x61, 0x62, 0x63, 0x6E, 0x64, 0x70, 0x6B]] := by decide +kernel
/-- V-R3: the ACK flag is not examined by the receiver. -/
theorem test_ack0f_atReceiver : nextIs (exec (.ack0f .receiver 9 0xDFDEA074 []) partly) fun t =>
    t.outputs == [.sent .receiver ⟨9, some 5002⟩ [0, 0, 0, 0, 1, 0, 0, 0, 0, 0, 0xA8, 0xD9, 0x90, 0xE2], .delivered abc] := by
  decide +kernel
/-- V-R2. -/
theorem test_rxRecv_seq2 : nextIs (exec (.rxRecv [0, 0, 0, 2, 0, 0, 0, 0, 0, 0, 0xB2, 0x46, 0x75, 0xCD] 9) partly) fun t =>
    t == partly := by decide +kernel
/-- V-R4: a duplicate is acknowledged, not appended. -/
theorem test_data0_duplicate : nextIs (exec (.data0 .receiver 9 0x2C6C8C7E abc) dedup) fun t =>
    decide (t.receiver.rxLen = 3) && t.outputs.length == 1 := by decide +kernel
/-- V-R4: the other bit, final: delivered, and the cycle forgets the bit. -/
theorem test_data1f_dedup : nextIs (exec (.data1f .receiver 9 0x19E56898 [0x6E, 0x64, 0x70, 0x6B]) dedup) fun t =>
    decide (t.receiver.rxLen = 0) && !t.receiver.rxLastValid &&
      t.outputs.getLast? == some (.delivered [0x61, 0x62, 0x63, 0x6E, 0x64, 0x70, 0x6B]) := by decide +kernel
/-- V-R5. -/
theorem test_overflow : nextIs (exec (.data1 .receiver 9 0xE7305FDB abc) bounded) fun t =>
    t.receiver == bounded.receiver && t.outputs == [.error .receiver .bufferOverflow] := by decide +kernel

/-- V-X2. -/
theorem test_reset : nextIs (exec (.reset .sender) waiting1) fun t =>
    t.sender.txState == .waitForCall0 && !t.sender.txActive && decide (t.sender.txSent = 0) && !t.sender.tmrArmed &&
      t.sender.timeoutMs == 300 && t.sender.common.portData == none && t.receiver == waiting1.receiver := by decide +kernel
/-- V-X1. -/
theorem test_cfgInit_bindFailure : nextIs (exec (.cfgInit .receiver false) configured) fun t =>
    t.receiver.common.halted && t.outputs == [.error .receiver .transportError] := by decide +kernel
/-- R223: not enabled without both ports. -/
theorem test_cfgInit_noPorts : exec (.cfgInit .receiver true) State.reset = .refused (.notEnabled .cfgInit) := rfl

/-- V-E2. -/
theorem test_injector_two : injectedCopies ⟨0, 0, 100⟩ ⟨5, 5, 5, 8, 3⟩ abc = [abc, abc] := by decide +kernel
/-- V-E1: index 4 of `ACK0`. -/
theorem test_injector_bitError : injectedCopies ⟨100, 0, 0⟩ ⟨99, 0, 0, 0, 4⟩ [0, 0, 0, 0, 1, 0, 0, 0, 0, 0, 0xA8, 0xD9, 0x90, 0xE2]
    = [[0, 0, 0, 0, 0, 0, 0, 0, 0, 0, 0xA8, 0xD9, 0x90, 0xE2]] := by decide +kernel
/-- V-E2: (101, 0, 0). -/
theorem test_injector_invalid : nextIs (step { configured with agenda := [.construct .sender 101 0 0] }) fun t =>
    t.outputs == [.error .sender (.invalidConfiguration 101)] := by decide +kernel
/-- R240, R252: not once traffic can flow. -/
theorem test_construct_afterInit : refusedBy .construct (step { started with agenda := [.construct .sender 5 0 0] }) := by
  decide +kernel
/-- R35, U25. -/
theorem test_halted_crc : refusedBy .halted (exec (.crcUpdate .receiver 0x61) haltedBoth) := by decide +kernel
/-- R35, U25. -/
theorem test_halted_timer : refusedBy .halted (exec (.tmrStart 5) haltedBoth) := by decide +kernel
/-- R282. -/
theorem test_unstarted_timer : refusedBy .notStarted (exec (.tmrStart 5) configured) := by decide +kernel
/-- R35, D21, U25: nothing but RESET. -/
theorem test_halted_tick : refusedBy .halted (exec .tmrTick haltedBoth) && refusedBy .halted (exec .tmrExpire haltedBoth) := by
  decide +kernel
/-- R177: the host cannot reach the timer. -/
theorem test_host_timer : refusedBy .neverByItself (step { waiting with agenda := [.request (.op .sender [0x31])] }) := by
  decide +kernel
/-- R223: no datagram, no TX.RECV. -/
theorem test_arrival_none : refusedBy .noDatagram (step { waiting with agenda := [.request (.op .sender [0x44, 0, 0, 0, 9, 1])] }) := by decide +kernel
/-- R223, R232: an arrival takes its datagram out of flight. -/
theorem test_arrival : nextIs (step { waiting with
      agenda := [.request (.datagram .sender 9 [0, 0, 0, 0, 1, 0, 0, 0, 0, 0, 0xA8, 0xD9, 0x90, 0xE2])]
      inFlight := [⟨⟨1, some 5002⟩, 9, [0, 0, 0, 0, 1, 0, 0, 0, 0, 0, 0xA8, 0xD9, 0x90, 0xE2]⟩] }) fun t =>
    t.sender.txState == .waitForCall1 && t.inFlight == [] := by decide +kernel
/-- V-X3: a failing socket: the transition is as without the error, nothing enters the transport. -/
theorem test_send_linkDown : nextIs (exec .txSendPacket { loaded with senderSide := { loaded.senderSide with outboundUp := false } }) fun t =>
    t.sender.txState == .waitForAck0 && t.sender.tmrArmed && t.inFlight == [] := by decide +kernel
/-- R217, V-X3: the acknowledgement's `send` fails on the outbound socket while the inbound one works: the append stands. -/
theorem test_ack_outboundDown : nextIs (step { arrivingAt .receiver [0, 0, 0, 1, 0, 0, 0, 0, 0, 0, 0xE7, 0x30, 0x5F, 0xDB, 0x61, 0x62, 0x63] with
      receiverSide := { waiting.receiverSide with outboundUp := false } }) fun t =>
    decide (t.receiver.rxLen = 3) && t.inFlight.length == 1 && t.outputs.length == 1 := by decide +kernel
/-- V-E3: a datagram for a sender in a `WaitForCall` state stays in flight. -/
theorem test_unready : nextIs (exec (.txRecv abc 9) loaded) fun t => t.inFlight == [⟨⟨1, some 5002⟩, 9, abc⟩] && t.sender == loaded.sender := by
  decide +kernel

/-! ### Fetching -/

theorem test_withFetchWord_op : decodeTableWord 8 0x41 = some .txSendPacket := by decide +kernel
theorem test_withFetchWord_unit : nextIs (step (State.reset.withFetchWord 8 0x30)) fun t => t.sender.tmrArmed && t.unitCall == none := by
  decide +kernel
/-- R11: the two ports differ. -/
theorem test_withFetchWord_ports : nextIs (step (State.reset.withFetchWord 8 0x01)) fun t =>
    t.sender.common.portData != t.sender.common.portAck && t.sender.common.initDone := by decide +kernel
theorem test_withFetchWord_frame : decodeTableWord 48 0x000000010101 = some (.ack1f .sender 0 0 []) := by decide +kernel

/-! ### Witnesses: states and operands that meet the hypotheses of each statement -/

theorem test_witness_DecodeEncodeRoundTrip :
    (Instr.codecIsValid .sender ⟨2, 3, 4, 5, List.replicate 1400 9⟩).wellFormed = true := by decide +kernel
theorem test_witness_EncodeDecodeRoundTrip :
    ∃ i, decode (.op .receiver [0x50, 1, 2, 3, 4, 5]) = .ok i := ⟨_, rfl⟩
theorem test_witness_FrameKindsByFields :
    14 ≤ (List.replicate 14 (0 : Byte)).length ∧ (List.replicate 1414 (0 : Byte)).length ≤ 1414 := by decide +kernel
theorem test_witness_CrcUnitAndCodec_notHalted :
    (commonOf .sender started).halted = false ∧ (commonOf .receiver configured).halted = false := by decide +kernel
theorem test_witness_CrcReadLeavesAccumulator :
    (commonOf .sender started).halted = false ∧ (commonOf .sender started).crcAcc = crc32 [] ^^^ 0xFFFFFFFF := by decide +kernel
theorem test_witness_CrcIncrementalAndAffine :
    ([1] : List Byte).length = ([2] : List Byte).length ∧ ([2] : List Byte).length = ([3] : List Byte).length := by decide +kernel
theorem test_witness_CrcDetectsFourByteBursts :
    ([1, 2, 3, 4] : List Byte).length = ([1, 2, 3, 5] : List Byte).length ∧ ([1, 2, 3, 4] : List Byte).length ≤ 4 ∧
      ([1, 2, 3, 4] : List Byte) ≠ [1, 2, 3, 5] := by decide +kernel
theorem test_witness_EncodeBuildsWireFrame :
    (List.replicate 1400 (0 : Byte)).length ≤ 1400 ∧ 1400 < tooLong.length := by decide +kernel
theorem test_witness_DecodeParsesFields :
    14 ≤ (List.replicate 1414 (0 : Byte)).length ∧ (List.replicate 1414 (0 : Byte)).length ≤ 1414 ∧
      (List.replicate 13 (0 : Byte)).length < 14 ∧ 1414 < (List.replicate 1415 (0 : Byte)).length := by decide +kernel
theorem test_witness_FrameCodecRoundTrip :
    ∃ F, parseFrame [0, 0, 0, 0, 1, 0, 0, 0, 0, 0, 0xA8, 0xD9, 0x90, 0xE2] = .ok F ∧ frameWellFormed F = true ∧
      validWith hardware F = true := 
  ⟨⟨0, 1, 0, 0xA8D990E2, []⟩, by decide +kernel⟩
theorem test_witness_IsValidComparesAllBits :
    (⟨0, 1, 0, 0x01000000A8D990E2, []⟩ : Frame).cks.extractLsb' 32 32 ≠ 0 := by decide +kernel
theorem test_witness_IsValidWellFormedFrame :
    frameWellFormed ⟨1, 1, 0, 0xA91BFAD5, []⟩ = true ∧ (⟨1, 1, 0, 0xA91BFAD5, List.replicate 1400 0⟩ : Frame).payload.length ≤ 1400 := by decide +kernel
theorem test_witness_IsWellFormedTestsRanges :
    parseFrame [0, 0, 0, 2, 0, 0, 0, 0, 0, 0, 0xB2, 0x46, 0x75, 0xCD] = .ok ⟨2, 0, 0, 0xB24675CD, []⟩ ∧
      frameWellFormed ⟨2, 0, 0, 0xB24675CD, []⟩ = false := by decide +kernel
theorem test_witness_SingleByteChangeIsInvalid :
    abc.length ≤ 1400 ∧ (encodeBytes false false true abc).length = 17 ∧
      ∀ k ∈ [0, 5, 6, 13, 14, 16], (encodeBytes false false true abc)[k]? ≠ some 0x77 := by decide +kernel
theorem test_witness_ReceiverAppendsAcknowledgesDelivers :
    abc.length ≤ 1400 ∧ partly.receiver.common.initDone = true ∧ partly.receiver.common.halted = false ∧
      partly.receiver.rxDedup = false ∧ partly.receiver.rxBufMax = none ∧ partly.receiver.rxBuf.readBytes 0 partly.receiver.rxLen = some abc := by decide +kernel
theorem test_witness_ReceiverAppendsAtCapacity :
    bounded.receiver.rxBufMax = some 4 ∧ bounded.receiver.rxLen + ([7] : List Byte).length ≤ 4 := by decide +kernel
theorem test_witness_ReceiverDiscardsUnacceptable :
    started.receiver.common.initDone = true ∧ started.receiver.common.halted = false ∧ parseFrame abc = .error .tooShort := by decide +kernel
theorem test_witness_ReceiverDiscardsFrameKind :
    decode (.datagram .receiver 7 (List.replicate 14 0)) = .ok (.data0 .receiver 7 0 []) ∧
      acceptableFrame (List.replicate 14 0) = none := by decide +kernel
theorem test_witness_DuplicateIsAcknowledgedOnly :
    dedup.receiver.rxDedup = true ∧ dedup.receiver.rxLastValid = true ∧ dedup.receiver.rxLastSeq = false ∧
      dedup.receiver.common.initDone = true ∧ dedup.receiver.common.halted = false := by decide +kernel
theorem test_witness_DedupTracksSequenceBit :
    dedup.receiver.rxDedup = true ∧ dedup.receiver.rxLastSeq = !true ∧ dedup.receiver.rxBufMax = none ∧
      dedup.receiver.common.initDone = true ∧ dedup.receiver.common.halted = false ∧
      dedup.receiver.rxBuf.readBytes 0 dedup.receiver.rxLen = some abc := by decide +kernel
theorem test_witness_OverflowLeavesReceiverAlone :
    bounded.receiver.common.initDone = true ∧ bounded.receiver.common.halted = false ∧ bounded.receiver.rxDedup = false ∧
      bounded.receiver.rxBufMax = some 4 ∧ 4 < bounded.receiver.rxLen + abc.length := by decide +kernel
theorem test_witness_SenderAcceptsMatchingAck :
    waiting.sender.txState = .waitForAck0 ∧ waiting1.sender.txState = .waitForAck1 ∧ waiting.sender.common.initDone = true ∧
      waiting.sender.common.halted = false := by decide +kernel
theorem test_witness_SenderDiscardsUnmatched :
    txWaiting waiting.sender.txState = true ∧ waiting.sender.common.initDone = true ∧ waiting.sender.common.halted = false ∧
      parseFrame [0, 0, 0, 1, 1, 0, 0, 0, 0, 0, 0xA9, 0x1B, 0xFA, 0xD5] = .ok ⟨1, 1, 0, 0xA91BFAD5, []⟩ ∧
      (1 : BitVec 32).toNat ≠ (txSeq waiting.sender.txState).toNat := by decide +kernel
theorem test_witness_SenderIgnoresEndPayloadSource :
    txWaiting waiting.sender.txState = true ∧ waiting.sender.common.initDone = true ∧ waiting.sender.common.halted = false ∧
      (nextState? (exec (.txRecv (encodeBytes false true true abc) 7) waiting)).isSome = true ∧
      frameKind false true false .sender 9 (rightChecksum false true false []) [] = .ack0 .sender 9 0xA8D990E2 [] ∧
      (nextState? (exec (.ack0 .sender 9 0xA8D990E2 []) waiting)).isSome = true := by decide +kernel
theorem test_witness_UnreadyLeavesDatagramInFlight :
    configured.sender.common.initDone = false ∧ haltedBoth.sender.common.halted = true ∧
      loaded.sender.txState = .waitForCall0 ∧ calling1.sender.txState = .waitForCall1 ∧
      configured.receiver.common.initDone = false ∧ haltedBoth.receiver.common.halted = true ∧
      decode (.datagram .sender 7 (List.replicate 14 0)) = .ok (.data0 .sender 7 0 []) := by decide +kernel
theorem test_witness_TmrStartSupersedes :
    started.sender.common.initDone = true ∧ started.sender.common.halted = false ∧ (300 : BitVec 32) ≠ 0 ∧ (0 : BitVec 32) = 0 := by decide +kernel

/-- The invariant at a state that is not the power-on state: a chunk in flight, its timer due. -/
theorem waiting_inv : SystemInv waiting where
  sender := by
    refine ⟨?_, ?_, ?_, ?_, ?_, ?_, ?_, ?_, ?_, ?_⟩
    case refine_10 => exact fun _ => (by decide : ∀ a, a < 3 → (waiting.sender.txBuf.read a).isSome = true)
    all_goals decide
  receiver := ⟨fun a h => absurd h (Nat.not_lt_zero a), fun m h => by cases h⟩
  memories := by refine ⟨?_, ?_, ?_, ?_, ?_, ?_⟩ <;> decide
  unitCall := rfl

/-- The invariant at a state with both instances halted. -/
theorem haltedBoth_inv : SystemInv haltedBoth where
  sender := by
    refine ⟨?_, ?_, ?_, ?_, ?_, ?_, ?_, ?_, ?_, ?_⟩
    case refine_10 => exact fun h => absurd h (by decide)
    all_goals decide
  receiver := ⟨fun a h => absurd h (Nat.not_lt_zero a), fun m h => by cases h⟩
  memories := by refine ⟨?_, ?_, ?_, ?_, ?_, ?_⟩ <;> decide
  unitCall := rfl

theorem test_witness_ExpiryExactlyWhenDue :
    SystemInv waiting ∧ waiting.sender.tmrArmed = true ∧ waiting.sender.tmrCount = 0 := ⟨waiting_inv, by decide⟩
theorem test_witness_TimeoutResendsChunk :
    waiting.sender.common.initDone = true ∧ waiting.sender.common.halted = false ∧ waiting.sender.tmrArmed = true ∧ waiting.sender.tmrCount = 0 ∧ waiting.sender.txState = .waitForAck0 ∧
      waiting.sender.txSent = 0 + waiting.sender.txLast.toNat ∧ 0 ≤ waiting.sender.txLen ∧
      3 = min 1400 (waiting.sender.txLen - 0) ∧ waiting.sender.txBuf.readBytes 0 3 = some abc := by decide +kernel
theorem test_witness_TimeoutResendsChunk_bit1 :
    waiting1.sender.txState = .waitForAck1 ∧ waiting1.sender.txSent = 0 + waiting1.sender.txLast.toNat := by decide +kernel
theorem test_witness_TmrTickCountsDown :
    waiting.sender.common.halted = false := by decide +kernel
theorem test_witness_TmrCancelPreventsExpiry :
    waiting.sender.common.initDone = true ∧ waiting.sender.common.halted = false := by decide +kernel
theorem test_witness_TimerCountsTicks :
    started.sender.common.initDone = true ∧ started.sender.common.halted = false ∧ 300 ≤ (300 : BitVec 32).toNat := by decide +kernel
theorem test_witness_TxLoadStartsTransfer :
    started.sender.common.initDone = true ∧ started.sender.common.halted = false ∧ started.sender.txActive = false := by decide +kernel
theorem test_witness_TxLoadRefusedWhileActive :
    loaded.sender.common.initDone = true ∧ loaded.sender.common.halted = false ∧ loaded.sender.txActive = true := by decide +kernel
theorem test_witness_TxSendPacketSendsChunk :
    loaded.sender.common.halted = false ∧ loaded.sender.txActive = true ∧ loaded.sender.txState = .waitForCall0 ∧
      calling1.sender.txState = .waitForCall1 ∧ loaded.sender.txSent ≤ loaded.sender.txLen ∧
      3 = min 1400 (loaded.sender.txLen - loaded.sender.txSent) ∧ loaded.sender.txBuf.readBytes loaded.sender.txSent 3 = some abc := by decide +kernel
theorem test_witness_TxPacketReceivedAdvances :
    waiting.sender.common.initDone = true ∧ waiting.sender.common.halted = false ∧ waiting.sender.txState = .waitForAck0 ∧ waiting.sender.txSent = waiting.sender.txLen ∧
      waiting1.sender.txState = .waitForAck1 ∧ waiting1.sender.txSent ≠ waiting1.sender.txLen := by decide +kernel
theorem test_witness_UnlistedPairsHaveNoEffect :
    waiting.sender.common.initDone = true ∧ waiting.sender.common.halted = false ∧ loaded.sender.common.initDone = true ∧
      loaded.sender.common.halted = false ∧ waiting.sender.txState = .waitForAck0 ∧ waiting1.sender.txState = .waitForAck1 ∧ loaded.sender.txState = .waitForCall0 ∧
      calling1.sender.txState = .waitForCall1 := by decide +kernel
theorem test_witness_RetransmissionRepeatsChunk :
    loaded.sender.common.initDone = true ∧ txWaiting loaded.sender.txState = false ∧
      (nextState? (execWith hardware .txSendPacket loaded)).isSome = true := by decide +kernel
theorem test_witness_TransferSendsEveryChunk :
    started.sender.common.initDone = true ∧ started.sender.common.halted = false ∧ started.sender.txActive = false ∧
      (nextState? (execWith hardware (.txLoad abc 2) started)).isSome = true ∧ chunkCount 0 = 1 ∧ chunkCount 1400 = 1 ∧ chunkCount 2801 = 3 := by decide +kernel
theorem test_witness_CleanTransferDeliversBuffer :
    (5001 : Port) ≠ 5002 ∧ started.sender.common.initDone = true ∧ started.sender.common.halted = false ∧
      started.sender.txActive = false ∧ started.sender.common.portData = some 5001 ∧ started.sender.common.portAck = some 5002 ∧
      started.receiver.common.initDone = true ∧ started.receiver.common.halted = false ∧ started.receiver.rxLen = 0 ∧
      started.receiver.common.portData = some 5001 ∧ started.receiver.common.portAck = some 5002 ∧
      started.receiver.rxDedup = false ∧ started.receiver.rxBufMax = none ∧ started.senderSide = ⟨⟨0, 0, 0⟩, true, true⟩ ∧
      started.receiverSide = ⟨⟨0, 0, 0⟩, true, true⟩ ∧ started.inFlight = [] ∧
      (nextState? (exec (.txLoad abc started.receiver.common.addr) started)).isSome = true := by decide +kernel
theorem test_witness_CleanTransferDeliversBuffer_dedup :
    dedup.receiver.rxDedup = true ∧ ({ dedup.receiver with rxLastValid := false } : Receiver).rxLastValid = false := by decide +kernel
theorem test_witness_CfgInitFreezesOrHalts :
    (commonOf .sender configured).portData.isSome = true ∧ (commonOf .sender configured).portAck.isSome = true ∧
      (commonOf .sender configured).initDone = false ∧ (commonOf .sender configured).halted = false ∧
      (commonOf .sender haltedBoth).halted = true ∧ (commonOf .receiver State.reset).portData = none ∧
      (commonOf .receiver State.reset).portAck = none ∧ (commonOf .receiver started).initDone = true := by decide +kernel
theorem test_witness_ConfigurationWrites :
    configured.unitCall = none ∧ started.unitCall = none ∧ (commonOf .sender configured).initDone = false ∧ (commonOf .sender started).initDone = true ∧
      ({ configured with agenda := [.configure (.portData .sender 7)] } : State).agenda = .configure (.portData .sender 7) :: [] ∧
      ({ configured with agenda := [.configure (.portAck .sender 7)] } : State).agenda = .configure (.portAck .sender 7) :: [] ∧
      ({ configured with agenda := [.configure (.timeoutMs 7)] } : State).agenda = .configure (.timeoutMs 7) :: [] ∧
      ({ configured with agenda := [.configure (.rxDedup true)] } : State).agenda = .configure (.rxDedup true) :: [] := by decide +kernel
theorem test_witness_FailedGuardsHaveNoTransition :
    configured.sender.common.initDone = false ∧ haltedBoth.sender.common.halted = true ∧ started.sender.txState = .waitForCall0 ∧
      started.sender.txActive = false ∧ calling1.sender.txState = .waitForCall1 ∧ started.sender.tmrArmed = false ∧
      (startTimer 5 started).sender.tmrCount ≠ 0 ∧ configured.sender.common.halted = false := by decide +kernel
theorem test_witness_FailedGuards_steps :
    decode (.op .sender [0x30, 0, 0, 0, 5]) = .ok (.tmrStart 5) ∧ decode (.op .sender [0x31]) = .ok .tmrCancel ∧
      decode (.op .sender [0x42]) = .ok .txTimeout ∧ decode (.op .sender [0x43]) = .ok .txPacketReceived ∧
      ({ waiting with agenda := [.request (.op .sender [0x43])] } : State).unitCall = none ∧
      decode (.op .sender [0x44, 0, 0, 0, 9, 1]) = .ok (.txRecv [1] 9) ∧ arrivalOfInstr (.txRecv [1] 9) = some ⟨.sender, 9, [1]⟩ ∧
      ({ waiting with agenda := [.request (.op .sender [0x44, 0, 0, 0, 9, 1])] } : State).inFlight = [] := by decide +kernel
theorem test_witness_HaltedUntilReset :
    haltedBoth.unitCall = none ∧ (commonOf .sender haltedBoth).halted = true ∧ (commonOf .receiver haltedBoth).halted = true ∧
      (nextState? (step haltedBoth)).isSome = true := by decide +kernel
theorem test_witness_HaltedInstanceDoesNothing :
    SystemInv haltedBoth ∧ haltedBoth.sender.common.halted = true ∧ haltedBoth.receiver.common.halted = true ∧
      Instr.txRecv abc 9 ≠ .reset .sender ∧ Instr.rxRecv abc 9 ≠ .reset .receiver ∧
      (nextState? (exec (.txRecv abc 9) haltedBoth)).isSome = true ∧ (nextState? (exec (.rxRecv abc 9) haltedBoth)).isSome = true := ⟨haltedBoth_inv, by decide +kernel⟩
theorem test_witness_StepKeepsSystemInv :
    SystemInv waiting ∧ (nextState? (step waiting)).isSome = true := ⟨waiting_inv, by decide +kernel⟩
theorem test_witness_StepKeepsMemoriesCanonical :
    MemoriesCanonical waiting ∧ (nextState? (step waiting)).isSome = true := ⟨waiting_inv.memories, by decide +kernel⟩
theorem test_witness_StepRunsDecodedInstruction :
    decode (.op .sender [0x32]) = .ok .tmrTick ∧ startable .tmrTick = true ∧ arrivalOfInstr .tmrTick = none ∧
      decodeTableWord 8 0x32 = some .tmrTick ∧ ({ waiting with agenda := [.request (.op .sender [0x32])] } : State).unitCall = none ∧
      ({ waiting with unitCall := some (.op .sender [0x42]) } : State).unitCall = some (.op .sender [0x42]) ∧
      decode (.op .sender [0x42]) = .ok .txTimeout ∧ decodeTableWord 8 0x42 = some .txTimeout := by decide +kernel
theorem test_witness_StepAtRest :
    loaded.unitCall = none ∧ loaded.agenda = [] ∧ loaded.sender.common.halted = false ∧ loaded.sender.txActive = true ∧
      loaded.sender.txState = .waitForCall0 ∧ waiting.agenda = [] ∧ waiting.sender.txState = .waitForAck0 ∧
      waiting.sender.tmrArmed = true ∧ waiting.sender.tmrCount = 0 ∧ started.agenda = [] ∧ sendEnabled started = false ∧
      expiryEnabled started = false := by decide +kernel
theorem test_witness_StepAtRest_counting :
    (startTimer 300 waiting).agenda = [] ∧ (startTimer 300 waiting).unitCall = none ∧
      (startTimer 300 waiting).sender.txState = .waitForAck0 ∧ (startTimer 300 waiting).sender.tmrArmed = true ∧
      sendEnabled (startTimer 300 waiting) = false ∧ expiryEnabled (startTimer 300 waiting) = false := by decide +kernel
theorem test_witness_DeliveryStartsReceive :
    (delivering 0).inFlight[0]? = some ⟨⟨(delivering 0).sender.common.addr, some 5002⟩, 2, abc⟩ ∧
      (delivering 0).sender.common.portAck = some 5002 ∧
      (delivering 1).inFlight[1]? = some ⟨⟨(delivering 1).receiver.common.addr, some 5001⟩, 1, abc⟩ ∧
      (delivering 1).receiver.common.portData = some 5001 ∧ (delivering 1).sender.common.addr ≠ (delivering 1).receiver.common.addr ∧
      (delivering 0).senderSide.inboundUp = true ∧ (delivering 1).receiverSide.inboundUp = true ∧
      (mapSide .sender (fun v => { v with inboundUp := false }) (delivering 0)).senderSide.inboundUp = false ∧
      (mapSide .receiver (fun v => { v with inboundUp := false }) (delivering 1)).receiverSide.inboundUp = false ∧
      (delivering 0).unitCall = none ∧ (delivering 0).agenda = .deliver 0 :: [] ∧
      (delivering 2).inFlight[2]? = some ⟨⟨7, some 5001⟩, 1, abc⟩ ∧
      (⟨7, some 5001⟩ : Endpoint) ≠ ⟨(delivering 2).sender.common.addr, (delivering 2).sender.common.portAck⟩ ∧
      (⟨7, some 5001⟩ : Endpoint) ≠ ⟨(delivering 2).receiver.common.addr, (delivering 2).receiver.common.portData⟩ := by decide +kernel
theorem test_witness_StepRunsDecodedInstruction_arrival :
    decode (.datagram .receiver 9 (List.replicate 14 0)) = .ok (.data0 .receiver 9 0 []) ∧
      arrivalOfInstr (.data0 .receiver 9 0 []) = some ⟨.receiver, 9, List.replicate 14 0⟩ ∧
      (ownEndpoint .receiver (arrivingAt .receiver (List.replicate 14 0))).port = some 5001 ∧
      ⟨ownEndpoint .receiver (arrivingAt .receiver (List.replicate 14 0)), 9, List.replicate 14 0⟩ ∈
        (arrivingAt .receiver (List.replicate 14 0)).inFlight ∧
      (sideOf .receiver (arrivingAt .receiver (List.replicate 14 0))).inboundUp = true := by decide +kernel
theorem test_witness_BadDatagramsAreDiscarded :
    (commonOf .sender waiting).initDone = true ∧ (commonOf .sender waiting).halted = false ∧ txWaiting waiting.sender.txState = true ∧
      (commonOf .receiver waiting).initDone = true ∧ (commonOf .receiver waiting).halted = false ∧ abc.length < 14 ∧
      1414 < (List.replicate 1415 (0 : Byte)).length ∧
      (ownEndpoint .sender (arrivingAt .sender abc)).port = some 5002 ∧ (sideOf .sender (arrivingAt .sender abc)).inboundUp = true ∧
      ⟨ownEndpoint .sender (arrivingAt .sender abc), 9, abc⟩ ∈ (arrivingAt .sender abc).inFlight ∧
      (arrivingAt .sender abc).unitCall = none ∧
      parseFrame (List.replicate 14 0) = .ok ⟨0, 0, 0, 0, []⟩ ∧
      (0 : BitVec 64).setWidth 32 ≠ crc32 (coveredBytes ⟨0, 0, 0, 0, []⟩) := by decide +kernel
theorem test_witness_BadDatagrams_fields :
    parseFrame [0, 0, 0, 2, 0, 0, 0, 0, 0, 0, 0xB2, 0x46, 0x75, 0xCD] = .ok ⟨2, 0, 0, 0xB24675CD, []⟩ ∧
      parseFrame [0, 0, 0, 0, 2, 0, 0, 0, 0, 0, 0x83, 0xF4, 0xC3, 0x21] = .ok ⟨0, 2, 0, 0x83F4C321, []⟩ ∧
      parseFrame [0, 0, 0, 0, 0, 2, 0, 0, 0, 0, 0, 0, 0, 0] = .ok ⟨0, 0, 2, 0, []⟩ ∧
      parseFrame [0, 0, 0, 0, 1, 0, 1, 0, 0, 0, 0xA8, 0xD9, 0x90, 0xE2] = .ok ⟨0, 1, 0, 0x01000000A8D990E2, []⟩ ∧
      (0x01000000A8D990E2 : BitVec 64).extractLsb' 32 32 ≠ 0 := by decide +kernel
theorem test_witness_NextStateFunction :
    (nextState? (execWith hardware .txSendPacket loaded)).isSome = true ∧ (nextState? (execWith hardware .txPacketReceived waiting)).isSome = true ∧
      (nextState? (execWith hardware (.txRecv abc 9) waiting)).isSome = true ∧ (nextState? (execWith hardware (.txLoad abc 2) started)).isSome = true ∧
      started.sender.txActive = false ∧ (nextState? (execWith hardware (.reset .sender) waiting)).isSome = true ∧
      (nextState? (execWith hardware .tmrTick waiting)).isSome = true := by decide +kernel
theorem test_witness_TransferBufferUnchangedWhileActive :
    waiting.sender.txActive = true ∧ nextIs (step waiting) (fun t => t.sender.txActive) = true := by decide +kernel
theorem test_witness_ConfigurationFrozenAfterInit :
    waiting.sender.common.initDone = true ∧ waiting.receiver.common.initDone = true ∧
      nextIs (step waiting) (fun t => t.sender.common.initDone && t.receiver.common.initDone) = true := by decide +kernel
theorem test_witness_InstancesShareNoState :
    waiting.free = waiting1.free ∧ performer .tmrTick = .sender ∧ performer (.rxRecv abc 9) = .receiver ∧
      waiting.receiver = waiting1.receiver ∧ waiting.receiverSide = waiting1.receiverSide ∧
      (nextState? (execWith hardware (.rxRecv abc 9) waiting)).isSome = true ∧ (nextState? (execWith hardware .tmrTick waiting)).isSome = true := by decide +kernel
theorem test_witness_InjectorSendCounts :
    abc ≠ [] := by decide +kernel
theorem test_witness_InjectorSendCounts_failingAck :
    (arrivingAt .receiver (encodeBytes true false false abc)).agenda =
        .request (.datagram .receiver 9 (encodeBytes true false false abc)) :: [] ∧
      (arrivingAt .receiver abc).unitCall = none ∧ waiting.receiver.common.initDone = true ∧ waiting.receiver.common.halted = false ∧
      waiting.receiver.rxDedup = false ∧ waiting.receiver.rxBufMax = none ∧ waiting.receiver.common.portData = some 5001 ∧
      ⟨⟨2, some 5001⟩, 9, encodeBytes true false false abc⟩ ∈ (arrivingAt .receiver (encodeBytes true false false abc)).inFlight ∧
      ({ waiting.receiverSide with outboundUp := false } : Side).inboundUp = true := by decide +kernel
theorem test_witness_EnvironmentEvents :
    (delivering 0).inFlight[1]? = some ⟨⟨2, some 5001⟩, 1, abc⟩ ∧ (0 : Int) ≤ 100 ∧
      ¬(0 ≤ (-1 : Int) ∧ (-1 : Int) ≤ 100) ∧
      ({ delivering 0 with agenda := [.transport (.lose 1)] } : State).agenda = .transport (.lose 1) :: [] ∧
      ({ configured with agenda := [.construct .sender 0 100 101] } : State).unitCall = none ∧
      (commonOf .sender configured).initDone = false ∧ (commonOf .sender started).initDone = true := by decide +kernel

end Sys2Proof.Tests
end

namespace Sys2Proof.Machine

/-! ### Reading the transfer buffer (R15, R60) -/

/-- A block read gives the bytes that stand there. -/
theorem Memory.readBytes_of_read_eq {m : Memory} {a : Nat} {bytes : List Byte}
    (h : ∀ i, i < bytes.length → m.read (a + i) = bytes[i]?) : m.readBytes a bytes.length = some bytes := by
  rw [← Memory.readBytes_writeBytes m a bytes]
  exact Memory.readBytes_congr fun i hi => by rw [h i hi, Memory.read_writeBytes_inside m a bytes hi]

/-! ### What a TX.SENDPACKET and a Timeout leave (R189, R190) -/

/-- R189, R193: TX.SENDPACKET goes on without effect while a chunk awaits its acknowledgement, and else by `EmitChunk`. -/
theorem sendPacketWith_next {k : Config.Parameters} {s t : State} :
    sendPacketWith k s = .next t ↔
      s.sender.common.halted = false ∧
        ((txWaiting s.sender.txState = true ∧ t = s) ∨
          (txWaiting s.sender.txState = false ∧ s.sender.txActive = true ∧
            ∃ u, emitChunk k (txSeq s.sender.txState) s = .next u ∧
              t = setTxState (waitForAckOf (txSeq s.sender.txState)) u)) := by
  unfold sendPacketWith sendEnabled
  split
  · rename_i h
    obtain ⟨hw, hh⟩ : txWaiting s.sender.txState = true ∧ s.sender.common.halted = false := by simpa using h
    simp [hw, hh, @eq_comm _ t]
  · split
    · rename_i h
      obtain ⟨⟨hh, ha⟩, hw⟩ :
          (s.sender.common.halted = false ∧ s.sender.txActive = true) ∧ txWaiting s.sender.txState = false := by simpa using h
      simp [hh, ha, hw, andThen_next, @eq_comm _ t]
    · rename_i hnot hdis
      simp only [reduceCtorEq, false_iff]
      rintro ⟨hh, ⟨hw, -⟩ | ⟨hw, ha, -⟩⟩
      · exact hnot (by simp [hw, hh])
      · exact hdis (by simp [hh, ha, hw])

/-- R188, R189: the sender's registers `n` once the next chunk has been sent with sequence bit `q`; `acc` and `out` are the scratch
`crc_acc` and `FRAME_OUT` (log 17). -/
def chunkSent (q : Bool) (acc : Crc) (out : Memory) (n : Sender) : Sender :=
  { n with
    common := { n.common with crcAcc := acc, frameOut := out }
    txSent := n.txSent + chunkSize n
    txLast := BitVec.ofNat 11 (chunkSize n)
    tmrCount := n.timeoutMs
    tmrArmed := true
    txState := waitForAckOf q }

@[simp] theorem chunkSent_txSent (q : Bool) (acc : Crc) (out : Memory) (n : Sender) :
    (chunkSent q acc out n).txSent = n.txSent + chunkSize n := rfl

@[simp] theorem chunkSent_txState (q : Bool) (acc : Crc) (out : Memory) (n : Sender) :
    (chunkSent q acc out n).txState = waitForAckOf q := rfl

@[simp] theorem chunkSent_txLast_toNat (q : Bool) (acc : Crc) (out : Memory) (n : Sender) :
    (chunkSent q acc out n).txLast.toNat = chunkSize n := toNat_ofNat_chunkSize n

/-- The sender stands at the next chunk of `n`, sent with sequence bit `q` and not yet acknowledged. -/
def AwaitsAck (q : Bool) (n : Sender) (x : State) : Prop := ∃ acc out, x.sender = chunkSent q acc out n

/-- R188: the `send` of the next chunk of `n`, with the bytes `b`. -/
def chunkSend (k : Config.Parameters) (q : Bool) (b : List Byte) (n : Sender) : Output :=
  .sent .sender (dataEndpoint n) (encodeWith k q false (chunkFinal n) b)

/-- R188, R189: after `EmitChunk` and the move to the `WaitForAck` state the sender awaits the acknowledgement of the chunk sent. -/
theorem awaitsAck_setTxState_emitBytes (k : Config.Parameters) (q : Bool) (b : List Byte) (s : State) :
    AwaitsAck q s.sender (setTxState (waitForAckOf q) (emitBytes k q b s)) := ⟨_, _, rfl⟩

/-- R190: rolling back gives the counter the value it had before the chunk was sent. -/
theorem rollBack_chunkSent {q : Bool} {acc : Crc} {out : Memory} {n : Sender} {x : State} (h : x.sender = chunkSent q acc out n) :
    (rollBack x).sender = { chunkSent q acc out n with txSent := n.txSent } := by
  rw [rollBack_sender, h, chunkSent_txSent, chunkSent_txLast_toNat, Nat.add_sub_cancel]

/-- R190: a `Timeout` sends the chunk in hand again and leaves the sender awaiting its acknowledgement. -/
theorem takeTimeout_of_awaitsAck {k : Config.Parameters} {q : Bool} {b : List Byte} {n : Sender} {x : State}
    (h : AwaitsAck q n x) (hle : n.txSent ≤ n.txLen) (hb : n.txBuf.readBytes n.txSent (chunkSize n) = some b) :
    ∃ u, takeTimeout k x = .next u ∧ AwaitsAck q n u ∧ u.outputs = x.outputs ++ [chunkSend k q b n] := by
  obtain ⟨acc, out, hx⟩ := h
  have hr := rollBack_chunkSent hx
  have hwait : x.sender.txState = waitForAckOf q := by simp [hx]
  have hlast : x.sender.txLast.toNat ≤ x.sender.txSent := by simp [hx]
  have hemit : emitChunk k q (rollBack x) = .next (emitBytes k q b (rollBack x)) :=
    emitChunk_next.2 ⟨by rw [hr]; exact hle, b, by rw [hr]; exact hb, rfl⟩
  refine ⟨emitBytes k q b (rollBack x), takeTimeout_next.2 (.inl ⟨?_, hlast, ?_⟩), ?_, ?_⟩
  · rw [hwait, txWaiting_waitForAckOf]
  · rw [hwait, txSeq_waitForAckOf, hemit]
  · unfold AwaitsAck
    rw [emitBytes_sender, hr]
    exact ⟨_, _, rfl⟩
  · rw [emitBytes_outputs, hr]
    rfl

/-- R190: any number of timeouts, each sending the chunk in hand again. -/
theorem iterate_timeout_of_awaitsAck {k : Config.Parameters} {q : Bool} {b : List Byte} {n : Sender} {x : State}
    (h : AwaitsAck q n x) (hi : n.common.initDone = true) (hh : n.common.halted = false) (hle : n.txSent ≤ n.txLen)
    (hb : n.txBuf.readBytes n.txSent (chunkSize n) = some b) (m : Nat) :
    ∃ u, (fun o => andThen o (execWith k .txTimeout))^[m] (.next x) = .next u ∧ AwaitsAck q n u ∧
      u.outputs = x.outputs ++ List.replicate m (chunkSend k q b n) := by
  induction m with
  | zero => exact ⟨x, rfl, h, by simp⟩
  | succ m ih =>
    obtain ⟨u, hu, ⟨acc, out, hs⟩, ho⟩ := ih
    obtain ⟨v, hv, hw, hov⟩ := takeTimeout_of_awaitsAck (k := k) ⟨acc, out, hs⟩ hle hb
    refine ⟨v, ?_, hw, by rw [hov, ho, List.replicate_succ', List.append_assoc]⟩
    rw [Function.iterate_succ_apply', hu]
    exact whenStarted_next.2 ⟨by rw [hs]; exact hh, by rw [hs]; exact hi, hv⟩

/-- Settles O38: a `Timeout` rolls back to the registers the chunk was first sent from, so it sends the same datagram and leaves the same
counters; by induction on the number of timeouts. -/
theorem retransmissionRepeatsChunk : Obligations.RetransmissionRepeatsChunk := by
  unfold Obligations.RetransmissionRepeatsChunk
  intro k s t hinit hcall hsend
  obtain ⟨hh, ⟨hw, -⟩ | ⟨-, -, v, hemit, rfl⟩⟩ := sendPacketWith_next.1 hsend
  · simp [hcall] at hw
  obtain ⟨hle, b, hb, rfl⟩ := emitChunk_next.1 hemit
  refine ⟨chunkSend k (txSeq s.sender.txState) b s.sender, rfl, fun m => ?_⟩
  obtain ⟨u, hu, ⟨acc, out, hs⟩, ho⟩ :=
    iterate_timeout_of_awaitsAck (k := k) (awaitsAck_setTxState_emitBytes k _ b s) hinit hh hle hb m
  refine ⟨u, hu, ho, ?_⟩
  rw [hs]
  exact ⟨rfl, rfl, rfl, rfl, rfl⟩

end Sys2Proof.Machine

namespace Sys2Proof.Machine

open Sys2Proof.Safety

/-! ### The chunks of a buffer (R188, R198) -/

/-- R188: the bytes of the `j`-th chunk of a buffer. -/
def chunkBytes (buf : List Byte) (j : Nat) : List Byte := slice (1400 * j) (1400 * (j + 1)) buf

/-- R198: every chunk begins inside the buffer, or at its end. -/
theorem chunkStart_le {len j : Nat} (h : j < chunkCount len) : 1400 * j ≤ len := by
  unfold chunkCount at h
  omega

/-- R198: the chunk that reaches the end of the buffer is the last one. -/
theorem chunkEnd_eq_iff {len j : Nat} (h : j < chunkCount len) :
    1400 * j + min 1400 (len - 1400 * j) = len ↔ j + 1 = chunkCount len := by
  unfold chunkCount at *
  omega

/-- R198: a chunk that is not the last one is full. -/
theorem chunkLength_of_not_last {len j : Nat} (h : j + 1 < chunkCount len) : min 1400 (len - 1400 * j) = 1400 := by
  unfold chunkCount at h
  omega

theorem chunkBytes_length (buf : List Byte) (j : Nat) : (chunkBytes buf j).length = min 1400 (buf.length - 1400 * j) := by
  rw [chunkBytes, slice, List.length_take, List.length_drop, Nat.mul_succ, Nat.add_sub_cancel_left]

theorem chunkBytes_getElem? (buf : List Byte) (j : Nat) {i : Nat} (h : i < (chunkBytes buf j).length) :
    (chunkBytes buf j)[i]? = buf[1400 * j + i]? := by
  rw [chunkBytes_length] at h
  rw [chunkBytes, slice, List.getElem?_take_of_lt (by omega), List.getElem?_drop]

/-! ### A transfer between two chunks (R185) -/

/-- The sender has been loaded with `buf` for `dst`, and `j` of its chunks have been sent and acknowledged. -/
structure AtChunk (buf : List Byte) (dst : Endpoint) (j : Nat) (n : Sender) : Prop where
  initDone : n.common.initDone = true
  running  : n.common.halted = false
  active   : n.txActive = true
  calling  : txWaiting n.txState = false
  seqBit   : txSeq n.txState = decide (j % 2 = 1)
  length   : n.txLen = buf.length
  sent     : n.txSent = 1400 * j
  endpoint : dataEndpoint n = dst
  buffer   : ∀ i, i < buf.length → n.txBuf.read i = buf[i]?

/-- R186: an accepted load stands in front of the first chunk. -/
theorem atChunk_zero_loadTransfer {n : Sender} (buf : List Byte) (dest : Addr) (hi : n.common.initDone = true)
    (hh : n.common.halted = false) : AtChunk buf ⟨dest, n.common.portData⟩ 0 (loadTransfer buf dest n) where
  initDone := hi
  running := hh
  active := rfl
  calling := by simp [loadTransfer, txWaiting, txCode]
  seqBit := by simp [loadTransfer, txSeq, txCode]
  length := rfl
  sent := rfl
  endpoint := rfl
  buffer i h := by simpa [loadTransfer] using Memory.read_writeBytes_inside n.txBuf 0 buf h

section
variable {buf : List Byte} {dst : Endpoint} {j : Nat} {n : Sender}

theorem AtChunk.chunkSize_eq (h : AtChunk buf dst j n) : chunkSize n = (chunkBytes buf j).length := by
  rw [chunkBytes_length, chunkSize, h.length, h.sent]

theorem AtChunk.chunkFinal_eq (h : AtChunk buf dst j n) (hj : j < chunkCount buf.length) :
    chunkFinal n = decide (j + 1 = chunkCount buf.length) := by
  rw [chunkFinal, h.chunkSize_eq, chunkBytes_length, h.length, h.sent]
  exact decide_eq_decide.2 (chunkEnd_eq_iff hj)

theorem AtChunk.readBytes_eq (h : AtChunk buf dst j n) :
    n.txBuf.readBytes n.txSent (chunkSize n) = some (chunkBytes buf j) := by
  rw [h.chunkSize_eq, h.sent]
  refine Memory.readBytes_of_read_eq fun i hi => ?_
  rw [chunkBytes_getElem? buf j hi]
  rw [chunkBytes_length] at hi
  exact h.buffer _ (by omega)

theorem AtChunk.chunkSend_eq (h : AtChunk buf dst j n) (hj : j < chunkCount buf.length) (k : Config.Parameters) :
    chunkSend k (decide (j % 2 = 1)) (chunkBytes buf j) n = chunkOutput k dst buf j := by
  rw [chunkSend, h.endpoint, h.chunkFinal_eq hj, chunkBytes, chunkOutput]

end

/-! ### One round: a chunk is sent and acknowledged (R189, R191, R192) -/

/-- R191, R192: the sender's registers once the chunk in hand is acknowledged. -/
def chunkAcked (q : Bool) (acc : Crc) (out : Memory) (n : Sender) : Sender :=
  { chunkSent q acc out n with
    tmrArmed := false
    txState := waitForCallAfter q
    txActive := n.txActive && !chunkFinal n }

/-- R191, R192: the acknowledgement of the chunk in hand ends the transfer exactly when that chunk is the final one. -/
theorem takeAck_of_chunkSent {q : Bool} {acc : Crc} {out : Memory} {n : Sender} {x : State} (h : x.sender = chunkSent q acc out n) :
    (takeAck x).sender = chunkAcked q acc out n ∧
      (takeAck x).outputs = x.outputs ++ if chunkFinal n then [.done] else [] := by
  constructor
  · rw [takeAck_sender, h, chunkSent_txState, txWaiting_waitForAckOf, txSeq_waitForAckOf]
    rfl
  · rw [takeAck_outputs, h, chunkSent_txState, txWaiting_waitForAckOf]
    by_cases hf : n.txSent + chunkSize n = n.txLen <;> simp [chunkSent, chunkFinal, hf]

/-- R189 to R192: one round at chunk `j` sends it and has it acknowledged, with `done` after the last one. -/
theorem AtChunk.round {buf : List Byte} {dst : Endpoint} {j : Nat} {x : State} (h : AtChunk buf dst j x.sender)
    (hj : j < chunkCount buf.length) (k : Config.Parameters) :
    ∃ y acc out, andThen (execWith k .txSendPacket x) (execWith k .txPacketReceived) = .next y ∧
      y.sender = chunkAcked (decide (j % 2 = 1)) acc out x.sender ∧
      y.outputs = x.outputs ++ chunkOutput k dst buf j :: (if j + 1 = chunkCount buf.length then [.done] else []) := by
  have hle : x.sender.txSent ≤ x.sender.txLen := by rw [h.sent, h.length]; exact chunkStart_le hj
  have hemit := emitChunk_next (k := k) (q := decide (j % 2 = 1)) |>.2 ⟨hle, _, h.readBytes_eq, rfl⟩
  have hsend := sendPacketWith_next.2 ⟨h.running, .inr ⟨h.calling, h.active, _, h.seqBit ▸ hemit, rfl⟩⟩
  rw [h.seqBit] at hsend
  obtain ⟨acc, out, hs⟩ := awaitsAck_setTxState_emitBytes k (decide (j % 2 = 1)) (chunkBytes buf j) x
  obtain ⟨hack, hout⟩ := takeAck_of_chunkSent hs
  refine ⟨_, acc, out, andThen_next.2 ⟨_, hsend, whenStarted_next.2 ⟨?_, ?_, rfl⟩⟩, hack, ?_⟩
  · rw [hs]; exact h.running
  · rw [hs]; exact h.initDone
  · have hsent := h.chunkSend_eq hj k
    rw [hout, setTxState_outputs, emitBytes_outputs, ← hsent, h.chunkFinal_eq hj, List.append_assoc]
    simp [chunkSend, h.chunkFinal_eq hj]

/-- R191: a round at a chunk that is not the last one leads to the next chunk. -/
theorem AtChunk.chunkAcked_succ {buf : List Byte} {dst : Endpoint} {j : Nat} {n : Sender} (h : AtChunk buf dst j n)
    (hj : j + 1 < chunkCount buf.length) (acc : Crc) (out : Memory) :
    AtChunk buf dst (j + 1) (chunkAcked (decide (j % 2 = 1)) acc out n) where
  initDone := h.initDone
  running := h.running
  active := by
    have hf := h.chunkFinal_eq (by omega)
    rw [decide_eq_false (by omega)] at hf
    simp [chunkAcked, h.active, hf]
  calling := txWaiting_waitForCallAfter _
  seqBit := by
    rw [chunkAcked, txSeq_waitForCallAfter, ← decide_not]
    exact decide_eq_decide.2 (by omega)
  length := h.length
  sent := by
    have hfull := chunkLength_of_not_last hj
    show n.txSent + chunkSize n = _
    rw [h.chunkSize_eq, chunkBytes_length, h.sent, hfull, Nat.mul_succ]
  endpoint := h.endpoint
  buffer := h.buffer

/-- R192: a round at the last chunk ends the transfer. -/
theorem AtChunk.chunkAcked_last {buf : List Byte} {dst : Endpoint} {j : Nat} {n : Sender} (h : AtChunk buf dst j n)
    (hj : j + 1 = chunkCount buf.length) (q : Bool) (acc : Crc) (out : Memory) :
    (chunkAcked q acc out n).txActive = false ∧ (chunkAcked q acc out n).txSent = buf.length := by
  have hf := h.chunkFinal_eq (by omega)
  rw [decide_eq_true hj] at hf
  have hend : n.txSent + chunkSize n = n.txLen := of_decide_eq_true hf
  exact ⟨by simp [chunkAcked, hf], hend.trans h.length⟩

/-- R185: the rounds from chunk `j` to the last one. -/
theorem AtChunk.sendRounds_rest {buf : List Byte} {dst : Endpoint} (k : Config.Parameters) {m j : Nat} {x : State}
    (h : AtChunk buf dst j x.sender) (hm : j + (m + 1) = chunkCount buf.length) :
    ∃ u, sendRounds k (m + 1) x = .next u ∧
      u.outputs = x.outputs ++ (List.range' j (m + 1)).map (chunkOutput k dst buf) ++ [.done] ∧
      u.sender.txActive = false ∧ u.sender.tmrArmed = false ∧ u.sender.txSent = buf.length := by
  induction m generalizing j x with
  | zero =>
    obtain ⟨y, acc, out, hy, hs, ho⟩ := h.round (by omega) k
    obtain ⟨hactive, hsent⟩ := h.chunkAcked_last hm (decide (j % 2 = 1)) acc out
    refine ⟨y, andThen_next.2 ⟨y, hy, rfl⟩, ?_, by rw [hs, hactive], by rw [hs]; rfl, by rw [hs, hsent]⟩
    simp [ho, hm]
  | succ m ih =>
    obtain ⟨y, acc, out, hy, hs, ho⟩ := h.round (by omega) k
    have hnext := h.chunkAcked_succ (by omega) acc out
    rw [← hs] at hnext
    obtain ⟨u, hu, hou, hend⟩ := ih hnext (by omega)
    refine ⟨u, andThen_next.2 ⟨y, hy, hu⟩, ?_, hend⟩
    have hmid : ¬ j + 1 = chunkCount buf.length := by omega
    rw [hou, ho, if_neg hmid, List.range'_succ (n := m + 1)]
    simp

/-- R186, R187: a load on a started sender with no active transfer is accepted. -/
theorem execTxLoad_of_idle {buf : List Byte} {dest : Addr} {s : State} (hi : s.sender.common.initDone = true)
    (hh : s.sender.common.halted = false) (ha : s.sender.txActive = false) :
    execTxLoad buf dest s = .next (emit (.result .sender .accepted) (mapSender (loadTransfer buf dest) s)) := by
  simp [execTxLoad, hi, hh, ha]

/-- Settles O39: an accepted load stands in front of chunk 0, and each round leads from a chunk to the next one; by induction on the
number of chunks still to send. -/
theorem transferSendsEveryChunk : Obligations.TransferSendsEveryChunk := by
  unfold Obligations.TransferSendsEveryChunk
  intro k s t buf dest hi hh ha hload
  obtain rfl := Host.Outcome.next.inj ((execTxLoad_of_idle hi hh ha).symm.trans hload)
  have hpos : 0 < chunkCount buf.length := Nat.le_max_left _ _
  obtain ⟨m, hm⟩ : ∃ m, chunkCount buf.length = m + 1 := ⟨_, (Nat.sub_add_cancel hpos).symm⟩
  obtain ⟨u, hu, ho, hend⟩ := AtChunk.sendRounds_rest k (m := m)
    (x := emit (.result .sender .accepted) (mapSender (loadTransfer buf dest) s)) (atChunk_zero_loadTransfer buf dest hi hh)
    (by rw [hm, Nat.zero_add])
  exact ⟨u, hm ▸ hu, by rw [hm, List.range_eq_range', ho], hend⟩

end Sys2Proof.Machine

namespace Sys2Proof.Machine

open Sys2Proof.Safety

/-! ### The next state of `tx_state` (R221) -/

/-- R189: from a `WaitForCall` state to the `WaitForAck` state of the same sequence bit is one step of the code. -/
theorem txCode_waitForAckOf {q : TxState} (h : txWaiting q = false) : txCode (waitForAckOf (txSeq q)) = txCode q + 1 := by
  cases q <;> revert h <;> decide

/-- R191: from a `WaitForAck` state to the `WaitForCall` state of the other sequence bit is one step of the code. -/
theorem txCode_waitForCallAfter {q : TxState} (h : txWaiting q = true) :
    txCode (waitForCallAfter (txSeq q)) = txCode q + 1 := by
  cases q <;> revert h <;> decide

/-! #### Operations that leave `tx_state` -/

@[simp] theorem mapCommon_txState (who : Role) (f : Common → Common) (s : State) :
    (mapCommon who f s).sender.txState = s.sender.txState := by cases who <;> rfl

@[simp] theorem setCrc_txState (who : Role) (acc : Crc) (s : State) : (setCrc who acc s).sender.txState = s.sender.txState :=
  mapCommon_txState who _ s

@[simp] theorem writeFrame_txState (k : Config.Parameters) (who : Role) (q a f : Bool) (payload : List Byte) (s : State) :
    (writeFrame k who q a f payload s).sender.txState = s.sender.txState := by cases who <;> rfl

@[simp] theorem tickTimer_txState (n : Sender) : (tickTimer n).txState = n.txState := by
  unfold tickTimer
  split <;> rfl

/-- R188: `EmitChunk` does not move the sender. -/
theorem emitChunk_txState {k : Config.Parameters} {q : Bool} {s t : State} (h : emitChunk k q s = .next t) :
    t.sender.txState = s.sender.txState := by
  obtain ⟨-, b, -, rfl⟩ := emitChunk_next.1 h
  rfl

/-- R190: a `Timeout` stays in the same state. -/
theorem takeTimeout_txState {k : Config.Parameters} {s t : State} (h : takeTimeout k s = .next t) :
    t.sender.txState = s.sender.txState := by
  rcases takeTimeout_next.1 h with ⟨-, -, he⟩ | ⟨-, rfl⟩
  · exact (emitChunk_txState he).trans rfl
  · rfl

/-- R20: an arrival at the receiver leaves the sender's registers. -/
theorem receiveAtReceiver_sender {k : Config.Parameters} {wire : List Byte} {src : Addr} {s t : State}
    (h : receiveAtReceiver k wire src s = .next t) : t.sender = s.sender := by
  rcases receiveAtReceiver_cases h with ⟨-, rfl⟩ | ⟨-, -, rfl⟩ | ⟨-, f, -, -, rfl⟩ | ⟨-, f, -, -, rfl | hd⟩
  · rfl
  · rfl
  · rfl
  · rfl
  · obtain ⟨bytes, -, rfl⟩ := deliverBuffer_next.1 hd
    rfl

theorem receiveAt_sender_of_ne {k : Config.Parameters} {dest : Role} {wire : List Byte} {src : Addr} {s t : State}
    (h : receiveAt k dest wire src s = .next t) (hd : (dest == .sender) = false) : t.sender = s.sender := by
  cases dest with
  | sender => cases hd
  | receiver => exact receiveAtReceiver_sender h

/-- R221: an instruction that the rule does not list leaves `tx_state`. -/
theorem execWith_txState_of_unlisted {k : Config.Parameters} {i : Instr} {s t : State} (h : execWith k i s = .next t)
    (hsend : i ≠ .txSendPacket) (hrecv : i ≠ .txPacketReceived) (harr : arrivesAtSender i = false)
    (hload : ∀ buf dest, i ≠ .txLoad buf dest) (hreset : i ≠ .reset .sender) : t.sender.txState = s.sender.txState := by
  cases i with
  | data0 | data0f | ack0 | ack0f | data1 | data1f | ack1 | ack1f => exact congrArg Sender.txState (receiveAt_sender_of_ne h harr)
  | rxRecv => exact congrArg Sender.txState (receiveAtReceiver_sender h)
  | txRecv => cases harr
  | reset who =>
    cases who with
    | sender => exact absurd rfl hreset
    | receiver => cases h; rfl
  | cfgInit who ok =>
    simp only [execWith, execCfgInit] at h
    split at h
    · split at h <;> cases h <;> simp
    · cases h
  | crcInit | crcUpdate | crcRead | crcCompute | codecIsValid | codecIsWellFormed =>
    obtain ⟨-, h⟩ := unlessHalted_next.1 h
    cases h
    simp
  | codecEncode | codecDecode =>
    obtain ⟨-, h⟩ := unlessHalted_next.1 h
    split at h <;> cases h <;> simp
  | tmrStart | tmrCancel =>
    obtain ⟨-, -, h⟩ := whenStarted_next.1 h
    cases h
    rfl
  | tmrTick =>
    obtain ⟨-, h⟩ := unlessHalted_next.1 h
    cases h
    simp
  | tmrExpire =>
    obtain ⟨-, h⟩ := unlessHalted_next.1 h
    split at h
    · exact (takeTimeout_txState h).trans rfl
    · cases h
  | txLoad buf dest => exact absurd rfl (hload buf dest)
  | txSendPacket => exact absurd rfl hsend
  | txTimeout => exact takeTimeout_txState (whenStarted_next.1 h).2.2
  | txPacketReceived => exact absurd rfl hrecv

/-! #### Operations that move the sender -/

/-- R189: TX.SENDPACKET in a `WaitForCall` state. -/
theorem sendPacketWith_txCode {k : Config.Parameters} {s t : State} (h : sendPacketWith k s = .next t)
    (hcall : txWaiting s.sender.txState = false) : txCode t.sender.txState = txCode s.sender.txState + 1 := by
  obtain ⟨-, ⟨hw, -⟩ | ⟨-, -, u, -, rfl⟩⟩ := sendPacketWith_next.1 h
  · simp [hcall] at hw
  · exact txCode_waitForAckOf hcall

/-- R191: the `PacketReceived` transition in a `WaitForAck` state. -/
theorem takeAck_txCode {s : State} (hw : txWaiting s.sender.txState = true) :
    txCode (takeAck s).sender.txState = txCode s.sender.txState + 1 := by
  rw [takeAck_sender, if_pos hw]
  exact txCode_waitForCallAfter hw

/-- R194, R196: an arrival at the sender is kept in flight or discarded, or it is the acknowledgement waited for. -/
theorem receiveAtSender_txCode {k : Config.Parameters} {wire : List Byte} {src : Addr} {s t : State}
    (h : receiveAtSender k wire src s = .next t) :
    txCode t.sender.txState = txCode s.sender.txState ∨
      (txWaiting s.sender.txState = true ∧ txCode t.sender.txState = txCode s.sender.txState + 1) := by
  rcases receiveAtSender_cases k wire src s with ⟨-, e⟩ | ⟨-, -, e⟩ | ⟨hr, f, -, -, e⟩ <;> cases e.symm.trans h
  · exact .inl rfl
  · exact .inl rfl
  · have hw : txWaiting s.sender.txState = true := by
      simp only [senderReady, Bool.and_eq_true] at hr
      exact hr.2
    exact .inr ⟨hw, takeAck_txCode (s := noteAck k wire f s) hw⟩

/-- R194, R232: an arrival at the sender is examined by `receiveAtSender`. -/
theorem execWith_of_arrivesAtSender {i : Instr} (h : arrivesAtSender i = true) :
    ∃ wire src, ∀ (k : Config.Parameters) (s : State), execWith k i s = receiveAtSender k wire src s := by
  cases i with
  | data0 dest | data0f dest | ack0 dest | ack0f dest | data1 dest | data1f dest | ack1 dest | ack1f dest =>
    obtain rfl : dest = .sender := by simpa [arrivesAtSender] using h
    exact ⟨_, _, fun _ _ => rfl⟩
  | txRecv => exact ⟨_, _, fun _ _ => rfl⟩
  | _ => cases h

/-- R186: an accepted load begins in `WaitForCall0`. -/
theorem execTxLoad_txCode {buf : List Byte} {dest : Addr} {s t : State} (h : execTxLoad buf dest s = .next t)
    (ha : s.sender.txActive = false) : txCode t.sender.txState = 0 := by
  simp only [execTxLoad, ha] at h
  split at h <;> cases h
  rfl

/-- Settles O55: one lemma for each instruction that R221 lists, and one for all the others. -/
theorem nextStateFunction : Obligations.NextStateFunction := by
  unfold Obligations.NextStateFunction
  refine ⟨execWith_hardware, fun k i s t h => ⟨?_, ?_, ?_, ?_, ?_, execWith_txState_of_unlisted h⟩⟩
  · rintro rfl hcall
    exact sendPacketWith_txCode h hcall
  · rintro rfl hw
    obtain ⟨-, -, h⟩ := whenStarted_next.1 h
    cases h
    exact takeAck_txCode hw
  · intro harr
    obtain ⟨wire, src, he⟩ := execWith_of_arrivesAtSender harr
    exact receiveAtSender_txCode ((he k s).symm.trans h)
  · rintro ⟨buf, dest, rfl⟩ ha
    exact execTxLoad_txCode h ha
  · rintro rfl
    cases h
    rfl

end Sys2Proof.Machine

namespace Sys2Proof.Machine

open Sys2Proof.Safety

/-! ### What one operation does to the registers of the machine that performs it (R20, R35) -/

/-- R36, R60: `c'` is `c` but for the scratch of one operation (`crc_acc`, `FRAME_OUT`, `FRAME_IN`), whose spaces stay canonical. -/
structure Scratched (c c' : Common) : Prop where
  halted   : c'.halted = c.halted
  initDone : c'.initDone = c.initDone
  portData : c'.portData = c.portData
  portAck  : c'.portAck = c.portAck
  frameOut : Memory.wf c.frameOut = true → Memory.wf c'.frameOut = true
  frameIn  : Memory.wf c.frameIn = true → Memory.wf c'.frameIn = true

theorem Scratched.refl (c : Common) : Scratched c c := ⟨rfl, rfl, rfl, rfl, id, id⟩

/-- What instruction `i` can make of the registers `n` of the sender: the rules R170 to R199, R280 and R283, with their guards. -/
inductive SenderMove (i : Instr) (n : Sender) : Sender → Prop
  | idle : SenderMove i n n
  | reset (addr dest : Addr) (hi : i = .reset .sender) : SenderMove i n (Sender.reset addr dest)
  | init (ok : Bool) (he : initEnabled n.common = true) : SenderMove i n { n with common := initCommon ok n.common }
  | scratch (c : Common) (hh : n.common.halted = false) (hc : Scratched n.common c) : SenderMove i n { n with common := c }
  | tick (hh : n.common.halted = false) : SenderMove i n (tickTimer n)
  | timer (d : BitVec 32) (armed : Bool) (hh : n.common.halted = false) (hi : startable i = false) :
      SenderMove i n { n with tmrCount := d, tmrArmed := armed }
  | lapse (hh : n.common.halted = false) (ha : n.tmrArmed = true) (hw : txWaiting n.txState = false) :
      SenderMove i n { n with tmrArmed := false }
  | load (buf : List Byte) (dest : Addr) (hh : n.common.halted = false) (hi : n.common.initDone = true)
      (ha : n.txActive = false) : SenderMove i n (loadTransfer buf dest n)
  | chunk (acc : Crc) (out : Memory) (hh : n.common.halted = false) (ha : n.txActive = true)
      (hw : txWaiting n.txState = false) (hle : n.txSent ≤ n.txLen)
      (ho : Memory.wf n.common.frameOut = true → Memory.wf out = true) :
      SenderMove i n (chunkSent (txSeq n.txState) acc out n)
  | again (acc : Crc) (out : Memory) (hh : n.common.halted = false) (hw : txWaiting n.txState = true)
      (hle : n.txSent - n.txLast.toNat ≤ n.txLen) (ho : Memory.wf n.common.frameOut = true → Memory.wf out = true) :
      SenderMove i n (chunkSent (txSeq n.txState) acc out { n with txSent := n.txSent - n.txLast.toNat })
  | ack (c : Common) (hh : n.common.halted = false) (hw : txWaiting n.txState = true) (hc : Scratched n.common c) :
      SenderMove i n { n with
        common := c
        tmrArmed := false
        txState := waitForCallAfter (txSeq n.txState)
        txActive := n.txActive && !decide (n.txSent = n.txLen) }

/-- R212, R216: the registers `n` of the receiver once an accepted frame has been taken in; `c` holds the scratch. -/
def frameTaken (f : Frame) (src : Addr) (c : Common) (n : Receiver) : Receiver :=
  { (if isDuplicate n f then recordPeer src n else appendPayload f (recordPeer src n)) with common := c }

/-- What instruction `i` can make of the registers `n` of the receiver: the rules R210 to R219, R280 and R283, with their guards. -/
inductive ReceiverMove (i : Instr) (n : Receiver) : Receiver → Prop
  | idle : ReceiverMove i n n
  | reset (addr peer : Addr) (hi : i = .reset .receiver) : ReceiverMove i n (Receiver.reset addr peer n.rxBufMax)
  | init (ok : Bool) (he : initEnabled n.common = true) : ReceiverMove i n { n with common := initCommon ok n.common }
  | scratch (c : Common) (hh : n.common.halted = false) (hc : Scratched n.common c) : ReceiverMove i n { n with common := c }
  | take (f : Frame) (src : Addr) (c : Common) (hh : n.common.halted = false) (hc : Scratched n.common c)
      (hcap : isDuplicate n f = true ∨ overflows n f = false) : ReceiverMove i n (frameTaken f src c n)
  | deliver (f : Frame) (src : Addr) (c : Common) (hh : n.common.halted = false) (hc : Scratched n.common c) :
      ReceiverMove i n (clearCycle (frameTaken f src c n))

/-- R20: instruction `i`, leading from `s` to `t`, moves the machine that performs it and leaves the other one and its side alone. -/
inductive Acts (i : Instr) (s t : State) : Prop
  | sender (hp : performer i = .sender) (hm : SenderMove i s.sender t.sender) (hr : t.receiver = s.receiver)
      (hs : t.receiverSide = s.receiverSide) : Acts i s t
  | receiver (hp : performer i = .receiver) (hm : ReceiverMove i s.receiver t.receiver) (hr : t.sender = s.sender)
      (hs : t.senderSide = s.senderSide) : Acts i s t

/-! #### The operations both machines have -/

/-- An operation that leaves every register and both sides. -/
theorem acts_of_eq {i : Instr} {s t : State} (hs : t.sender = s.sender) (hr : t.receiver = s.receiver)
    (hss : t.senderSide = s.senderSide) (hrs : t.receiverSide = s.receiverSide) : Acts i s t := by
  cases hp : performer i with
  | sender => exact .sender hp (hs ▸ .idle) hr hrs
  | receiver => exact .receiver hp (hr ▸ .idle) hs hss

/-- R35: a checksum or codec operation, which writes the scratch of the machine that performs it. -/
theorem acts_mapCommon {i : Instr} {who : Role} {f : Common → Common} {s : State}
    (hh : (commonOf who s).halted = false) (hp : performer i = who) (hf : Scratched (commonOf who s) (f (commonOf who s))) :
    Acts i s (mapCommon who f s) := by
  cases who with
  | sender => exact .sender hp (.scratch _ hh hf) rfl rfl
  | receiver => exact .receiver hp (.scratch _ hh hf) rfl rfl

/-- An output of the operation changes no register. -/
theorem Acts.emit {i : Instr} {s t : State} (h : Acts i s t) (o : Output) : Acts i s (emit o t) := by
  cases h with
  | sender hp hm hr hs => exact .sender hp hm hr hs
  | receiver hp hm hr hs => exact .receiver hp hm hr hs

theorem scratched_crcAcc (acc : Crc) (c : Common) : Scratched c { c with crcAcc := acc } := ⟨rfl, rfl, rfl, rfl, id, id⟩

theorem scratched_frameOut (acc : Crc) (wire : List Byte) (c : Common) :
    Scratched c { c with crcAcc := acc, frameOut := c.frameOut.writeBytes 0 wire } :=
  ⟨rfl, rfl, rfl, rfl, fun h => Memory.writeBytes_wf h 0 wire, id⟩

/-- R150: what a successful ENCODE writes. -/
theorem writeFrame_eq (k : Config.Parameters) (who : Role) (q a f : Bool) (payload : List Byte) (s : State) :
    writeFrame k who q a f payload s = mapCommon who (fun c => { c with
      crcAcc := crcAfter k (coveredBytes (buildWith k q a f payload))
      frameOut := c.frameOut.writeBytes 0 (encodeWith k q a f payload) }) s := by
  cases who <;> rfl

/-- R283: CFG.INIT. -/
theorem acts_execCfgInit {who : Role} {ok : Bool} {s t : State} (h : execCfgInit who ok s = .next t) :
    Acts (.cfgInit who ok) s t := by
  unfold execCfgInit at h
  split at h
  · rename_i he
    have key (b : Bool) : Acts (.cfgInit who ok) s (mapCommon who (initCommon b) s) := by
      cases who with
      | sender => exact .sender rfl (.init b he) rfl rfl
      | receiver => exact .receiver rfl (.init b he) rfl rfl
    split at h <;> cases h
    · exact key true
    · exact (key false).emit _
  · cases h

/-- R280, R281: RESET. -/
theorem acts_execReset {who : Role} {s t : State} (h : execReset who s = .next t) : Acts (.reset who) s t := by
  cases who with
  | sender => cases h; exact .sender rfl (.reset _ _ rfl) rfl rfl
  | receiver => cases h; exact .receiver rfl (.reset _ _ rfl) rfl rfl

/-! #### The sender's operations -/

/-- R190: the chunk in hand is sent again, whether or not the timer has just been disarmed. -/
theorem acts_emitChunk_rollBack {i : Instr} {k : Config.Parameters} {s u t : State} {armed : Bool} (hp : performer i = .sender)
    (hh : s.sender.common.halted = false) (hw : txWaiting s.sender.txState = true)
    (hu : u.sender = { s.sender with tmrArmed := armed }) (hr : u.receiver = s.receiver) (hs : u.receiverSide = s.receiverSide)
    (h : emitChunk k (txSeq s.sender.txState) (rollBack u) = .next t) : Acts i s t := by
  obtain ⟨hle, b, -, rfl⟩ := emitChunk_next.1 h
  refine .sender hp ?_ hr hs
  have hq := ((txState_cases s.sender.txState).resolve_left (by simp [hw])).2
  rw [rollBack_sender, hu] at hle
  rw [emitBytes_sender, rollBack_sender, hu]
  have hm := SenderMove.again (i := i) (crcAfter k (coveredBytes (buildWith k (txSeq s.sender.txState) false
    (chunkFinal (rollBack u).sender) b))) _ hh hw hle
    (fun ho => Memory.writeBytes_wf ho 0 (encodeWith k (txSeq s.sender.txState) false (chunkFinal (rollBack u).sender) b))
  rw [rollBack_sender, hu, chunkSent, ← hq] at hm
  exact hm

/-- R190: a `Timeout` of a sender that is not halted. -/
theorem acts_takeTimeout {i : Instr} {k : Config.Parameters} {s t : State} (hp : performer i = .sender)
    (hh : s.sender.common.halted = false) (h : takeTimeout k s = .next t) : Acts i s t := by
  rcases takeTimeout_next.1 h with ⟨hw, -, he⟩ | ⟨-, rfl⟩
  · exact acts_emitChunk_rollBack hp hh hw rfl rfl rfl he
  · exact acts_of_eq rfl rfl rfl rfl

/-- R174: an expiry is a `Timeout`, or lapses where no chunk awaits its acknowledgement. -/
theorem acts_expireWith {k : Config.Parameters} {s t : State} (h : expireWith k s = .next t) : Acts .tmrExpire s t := by
  obtain ⟨hh, h⟩ := unlessHalted_next.1 h
  split at h
  · rename_i hd
    obtain ⟨⟨-, ha⟩, -⟩ : (_ ∧ s.sender.tmrArmed = true) ∧ _ := by simpa [expiryEnabled] using hd
    rcases takeTimeout_next.1 h with ⟨hw, -, he⟩ | ⟨hw, rfl⟩
    · exact acts_emitChunk_rollBack rfl hh hw (cancelTimer_sender s) rfl rfl he
    · exact .sender rfl (.lapse hh ha hw) rfl rfl
  · cases h

/-- R189: TX.SENDPACKET. -/
theorem acts_sendPacketWith {k : Config.Parameters} {s t : State} (h : sendPacketWith k s = .next t) :
    Acts .txSendPacket s t := by
  obtain ⟨hh, ⟨-, rfl⟩ | ⟨hw, ha, u, he, rfl⟩⟩ := sendPacketWith_next.1 h
  · exact acts_of_eq rfl rfl rfl rfl
  · obtain ⟨hle, b, -, rfl⟩ := emitChunk_next.1 he
    exact .sender rfl (.chunk _ _ hh ha hw hle fun ho => Memory.writeBytes_wf ho 0 _) rfl rfl

/-- R186, R187: TX.LOAD. -/
theorem acts_execTxLoad {buf : List Byte} {dest : Addr} {s t : State} (h : execTxLoad buf dest s = .next t) :
    Acts (.txLoad buf dest) s t := by
  unfold execTxLoad at h
  split at h
  · cases h
  · rename_i hg
    obtain ⟨hh, hi⟩ : s.sender.common.halted = false ∧ s.sender.common.initDone = true := by simpa using hg
    split at h <;> cases h <;> rename_i ha
    · exact acts_of_eq rfl rfl rfl rfl
    · exact .sender rfl (.load buf dest hh hi (by simpa using ha)) rfl rfl

/-- R191: an acknowledgement taken by a sender that is not halted, once `u` has noted its scratch. -/
theorem acts_takeAck {i : Instr} {s u : State} (hp : performer i = .sender) (hh : s.sender.common.halted = false)
    (hu : u.sender = { s.sender with common := u.sender.common }) (hc : Scratched s.sender.common u.sender.common)
    (hr : u.receiver = s.receiver) (hs : u.receiverSide = s.receiverSide) : Acts i s (takeAck u) := by
  refine .sender hp ?_ ((takeAck_receiver u).trans hr) ((takeAck_receiverSide u).trans hs)
  rw [takeAck_sender, hu]
  split
  · rename_i hw
    exact .ack _ hh hw hc
  · exact .scratch _ hh hc

/-- R194: an accepted acknowledgement leaves its scratch. -/
theorem scratched_noteAck (k : Config.Parameters) (wire : List Byte) (f : Frame) (s : State) :
    Scratched s.sender.common (noteAck k wire f s).sender.common :=
  ⟨rfl, rfl, rfl, rfl, id, fun _ => Memory.writeBytes_wf Memory.wf_nil 0 wire⟩

/-- R194, R196: the arrival of a datagram at the sender. -/
theorem acts_receiveAtSender {i : Instr} {k : Config.Parameters} {wire : List Byte} {src : Addr} {s t : State}
    (hp : performer i = .sender) (h : receiveAtSender k wire src s = .next t) : Acts i s t := by
  rcases receiveAtSender_cases k wire src s with ⟨-, e⟩ | ⟨-, -, e⟩ | ⟨hr, f, -, -, e⟩ <;> cases e.symm.trans h
  · exact acts_of_eq rfl rfl rfl rfl
  · exact acts_of_eq rfl rfl rfl rfl
  · obtain ⟨⟨-, hh⟩, -⟩ : (_ ∧ s.sender.common.halted = false) ∧ _ := by simpa [senderReady] using hr
    exact acts_takeAck hp hh rfl (scratched_noteAck k wire f s) rfl rfl

/-! #### The receiver's operation -/

/-- R212, R213: the registers once an accepted frame is taken in and acknowledged. -/
theorem sendAck_takeIn_eq_frameTaken (k : Config.Parameters) (wire : List Byte) (src : Addr) (f : Frame) (s : State) :
    ∃ c, Scratched s.receiver.common c ∧
      (sendAck k (sequenceBit f) (takeIn wire src f s)).receiver = frameTaken f src c s.receiver := by
  refine ⟨_, ?_, sendAck_takeIn_receiver k wire src f s⟩
  exact ⟨rfl, rfl, rfl, rfl, fun h => Memory.writeBytes_wf h 0 _, fun _ => Memory.writeBytes_wf Memory.wf_nil 0 wire⟩

/-- R210 to R218: the arrival of a datagram at the receiver. -/
theorem acts_receiveAtReceiver {i : Instr} {k : Config.Parameters} {wire : List Byte} {src : Addr} {s t : State}
    (hp : performer i = .receiver) (h : receiveAtReceiver k wire src s = .next t) : Acts i s t := by
  rcases receiveAtReceiver_cases h with ⟨-, rfl⟩ | ⟨-, -, rfl⟩ | ⟨-, f, -, -, rfl⟩ | ⟨hr, f, -, hcap, ht⟩
  · exact acts_of_eq rfl rfl rfl rfl
  · exact acts_of_eq rfl rfl rfl rfl
  · exact acts_of_eq rfl rfl rfl rfl
  · obtain ⟨-, hh⟩ : _ ∧ s.receiver.common.halted = false := by simpa [receiverReady] using hr
    obtain ⟨c, hc, he⟩ := sendAck_takeIn_eq_frameTaken k wire src f s
    rcases ht with rfl | hd
    · exact .receiver hp (he ▸ .take f src c hh hc hcap) rfl rfl
    · obtain ⟨bytes, -, rfl⟩ := deliverBuffer_next.1 hd
      refine .receiver hp ?_ rfl rfl
      rw [mapReceiver_receiver, emit_receiver, he]
      exact .deliver f src c hh hc

theorem acts_receiveAt {i : Instr} {k : Config.Parameters} {dest : Role} {wire : List Byte} {src : Addr} {s t : State}
    (hp : performer i = dest) (h : receiveAt k dest wire src s = .next t) : Acts i s t := by
  cases dest with
  | sender => exact acts_receiveAtSender hp h
  | receiver => exact acts_receiveAtReceiver hp h

/-! #### Every instruction -/

/-- R20, R35: what an instruction that goes on does. -/
theorem acts_of_execWith {k : Config.Parameters} {i : Instr} {s t : State} (h : execWith k i s = .next t) : Acts i s t := by
  cases i with
  | data0 | data0f | ack0 | ack0f | data1 | data1f | ack1 | ack1f => exact acts_receiveAt rfl h
  | txRecv => exact acts_receiveAtSender rfl h
  | rxRecv => exact acts_receiveAtReceiver rfl h
  | reset => exact acts_execReset h
  | cfgInit => exact acts_execCfgInit h
  | crcInit | crcUpdate =>
    obtain ⟨hh, h⟩ := unlessHalted_next.1 h
    cases h
    exact acts_mapCommon hh rfl (scratched_crcAcc _ _)
  | crcCompute | codecIsValid =>
    obtain ⟨hh, h⟩ := unlessHalted_next.1 h
    cases h
    exact (acts_mapCommon hh rfl (scratched_crcAcc _ _)).emit _
  | crcRead | codecIsWellFormed =>
    obtain ⟨hh, h⟩ := unlessHalted_next.1 h
    cases h
    exact acts_of_eq rfl rfl rfl rfl
  | codecEncode =>
    obtain ⟨hh, h⟩ := unlessHalted_next.1 h
    split at h <;> cases h
    · exact acts_of_eq rfl rfl rfl rfl
    · rw [writeFrame_eq]
      exact (acts_mapCommon hh rfl (scratched_frameOut _ _ _)).emit _
  | codecDecode =>
    obtain ⟨hh, h⟩ := unlessHalted_next.1 h
    split at h <;> cases h <;> exact acts_of_eq rfl rfl rfl rfl
  | tmrStart | tmrCancel =>
    obtain ⟨hh, -, h⟩ := whenStarted_next.1 h
    cases h
    exact .sender rfl (.timer _ _ hh rfl) rfl rfl
  | tmrTick =>
    obtain ⟨hh, h⟩ := unlessHalted_next.1 h
    cases h
    exact .sender rfl (.tick hh) rfl rfl
  | tmrExpire => exact acts_expireWith h
  | txLoad => exact acts_execTxLoad h
  | txSendPacket => exact acts_sendPacketWith h
  | txTimeout =>
    obtain ⟨hh, -, h⟩ := whenStarted_next.1 h
    exact acts_takeTimeout rfl hh h
  | txPacketReceived =>
    obtain ⟨hh, -, h⟩ := whenStarted_next.1 h
    cases h
    exact acts_takeAck rfl hh rfl (.refl _) rfl rfl

theorem acts_of_exec {i : Instr} {s t : State} (h : exec i s = .next t) : Acts i s t :=
  acts_of_execWith (k := hardware) ((execWith_hardware i s).trans h)

/-- R20: the registers of sender and receiver have moved by the instruction, or stayed as they were. -/
theorem Acts.moves {i : Instr} {s t : State} (h : Acts i s t) :
    SenderMove i s.sender t.sender ∧ ReceiverMove i s.receiver t.receiver := by
  cases h with
  | sender _ hm hr _ => exact ⟨hm, hr ▸ .idle⟩
  | receiver _ hm hs _ => exact ⟨hs ▸ .idle, hm⟩

end Sys2Proof.Machine

namespace Sys2Proof.Machine

open Sys2Proof.Safety

/-! ### What one step does (R70, R71, R223) -/

/-- `u` is a state of a run with the registers of `s`: it differs in the environment and the events to come alone, and no operation of a
unit is pending (log 6). -/
structure BlockAs (s u : State) : Prop where
  sender   : u.sender = s.sender
  receiver : u.receiver = s.receiver
  unitCall : u.unitCall = none

/-- R223, log 2: how an instruction comes to be performed when no operation of a unit is pending: an agent starts it, and a RESET only as
the request at the head of the agenda. -/
structure AgentStarts (s : State) (i : Instr) : Prop where
  startable : startable i = true
  reset     : ∀ who, i = .reset who → ∃ r rest, s.agenda = .request r :: rest ∧ decode r = .ok (.reset who)

/-- What a step from `s` to `t` is: an instruction, a write of the host to the configuration record, or an act of the environment. -/
inductive StepCase (s t : State) : Prop
  | instruction (i : Instr) (u : State) (hu : BlockAs s u) (h : exec i u = .next t) (hs : s.unitCall = none → AgentStarts s i)
  | configure (w : ConfigWrite) (u : State) (hu : BlockAs s u) (hw : configEnabled w u = true) (ht : t = applyConfig w u)
  | environment (hu : BlockAs s t)

/-- R223: agents start every arrival. -/
theorem startable_of_arrivalOfInstr {i : Instr} {a : Arrival} (h : arrivalOfInstr i = some a) : startable i = true := by
  cases i with
  | tmrStart | tmrCancel | txTimeout | txPacketReceived => cases h
  | _ => rfl

/-- An arrival is no RESET, and an agent starts it. -/
theorem agentStarts_of_arrivalOfInstr {s : State} {i : Instr} {a : Arrival} (h : arrivalOfInstr i = some a) : AgentStarts s i where
  startable := startable_of_arrivalOfInstr h
  reset who hi := by subst hi; cases h

/-- R232: the receiving operation of sender and receiver. -/
theorem exists_exec_eq_receiveAt (dest : Role) (src : Addr) (wire : List Byte) :
    ∃ i a, arrivalOfInstr i = some a ∧ ∀ s, exec i s = receiveAt hardware dest wire src s := by
  cases dest with
  | sender => exact ⟨.txRecv wire src, _, rfl, fun _ => rfl⟩
  | receiver => exact ⟨.rxRecv wire src, _, rfl, fun _ => rfl⟩

/-- R101: a request that goes on performs what it decodes to, or is examined as an arriving datagram. -/
theorem performBy_next {r : Request} {s t : State} (h : performBy exec hardware r s = .next t) :
    ∃ i, exec i s = .next t ∧ (decode r = .ok i ∨ ∃ a, arrivalOfInstr i = some a) := by
  cases hd : decode r with
  | ok i => exact ⟨i, (performBy_ok hd).symm.trans h, .inl rfl⟩
  | error why =>
    simp only [performBy, hd] at h
    cases r with
    | op => cases h
    | datagram dest src wire =>
      obtain ⟨i, a, ha, he⟩ := exists_exec_eq_receiveAt dest src wire
      exact ⟨i, (he s).trans h, .inr ⟨a, ha⟩⟩

/-- R194, R212: a request that is an arrival and goes on performs an arrival. -/
theorem performBy_next_of_arrivalOf {r : Request} {a : Arrival} {s t : State} (ha : arrivalOf r = some a)
    (h : performBy exec hardware r s = .next t) : ∃ i a', exec i s = .next t ∧ arrivalOfInstr i = some a' := by
  obtain ⟨i, hi, hd | ⟨a', ha'⟩⟩ := performBy_next h
  · exact ⟨i, a, hi, (arrivalOf_decoded hd).symm.trans ha⟩
  · exact ⟨i, a', hi, ha'⟩

/-- What is in flight is no register. -/
theorem BlockAs.withInFlight {s u : State} (h : BlockAs s u) (flight : List Datagram) : BlockAs s { u with inFlight := flight } :=
  ⟨h.sender, h.receiver, h.unitCall⟩

/-- R223: the request at the head of the agenda. -/
theorem stepCase_of_startBy {s u t : State} {r : Request} {rest : List Event} (hu : BlockAs s u) (hr : s.agenda = .request r :: rest)
    (h : startBy exec hardware r u = .next t) : StepCase s t := by
  unfold startBy at h
  split at h
  · rename_i a ha
    obtain ⟨-, ⟨-, h⟩ | ⟨-, rfl⟩⟩ := arriveBy_next.1 h
    · obtain ⟨i, a', hi, ha'⟩ := performBy_next_of_arrivalOf ha h
      exact .instruction i _ (hu.withInFlight _) hi fun _ => agentStarts_of_arrivalOfInstr ha'
    · exact .environment hu
  · split at h
    · cases h
    · rename_i hn
      obtain ⟨i, hi, hd | ⟨a, ha⟩⟩ := performBy_next h
      · refine .instruction i u hu hi fun _ => ⟨?_, ?_⟩
        · simpa [neverByItself_ok hd] using hn
        · rintro who rfl
          exact ⟨r, rest, hr, hd⟩
      · exact .instruction i u hu hi fun _ => agentStarts_of_arrivalOfInstr ha

/-- R232: the transport takes the datagram it delivers out of flight. -/
theorem pickUp_eq_some {n : Nat} {s u : State} {r : Request} (h : pickUp n s = some (r, u)) :
    (∃ a, arrivalOf r = some a) ∧ u = { s with inFlight := s.inFlight.eraseIdx n } := by
  unfold pickUp at h
  split at h
  · cases h
  · split at h <;> cases h
    exact ⟨⟨_, rfl⟩, rfl⟩

theorem stepCase_of_deliverBy {s u t : State} {n : Nat} (hu : BlockAs s u) (h : deliverBy exec hardware n u = .next t) :
    StepCase s t := by
  unfold deliverBy at h
  split at h
  · cases h
    exact .environment hu
  · split at h
    · cases h
    · rename_i hp
      obtain ⟨⟨a, ha⟩, rfl⟩ := pickUp_eq_some hp
      obtain ⟨i, a', hi, ha'⟩ := performBy_next_of_arrivalOf ha h
      exact .instruction i _ (hu.withInFlight _) hi fun _ => agentStarts_of_arrivalOfInstr ha'

/-- R231, R293: the transport changes what is in flight alone. -/
theorem runTransport_next {a : TransportAction} {s t : State} (h : runTransport a s = .next t) :
    ∃ flight, t = { s with inFlight := flight } := by
  cases a with
  | inject d => cases h; exact ⟨_, rfl⟩
  | lose k | duplicate k | alter k =>
    simp only [runTransport] at h
    split at h <;> cases h
    exact ⟨_, rfl⟩

/-- A change of a side changes no register. -/
theorem BlockAs.mapSide {s u : State} (h : BlockAs s u) (who : Role) (f : Side → Side) : BlockAs s (mapSide who f u) := by
  cases who <;> exact ⟨h.sender, h.receiver, h.unitCall⟩

theorem stepCase_of_eventBy {s u t : State} {e : Event} {rest : List Event} (hu : BlockAs s u) (he : s.agenda = e :: rest)
    (h : eventBy exec hardware e u = .next t) : StepCase s t := by
  cases e with
  | request r => exact stepCase_of_startBy hu he h
  | deliver n => exact stepCase_of_deliverBy hu h
  | configure w =>
    simp only [eventBy, runConfigure] at h
    split at h <;> cases h
    rename_i hw
    exact .configure w u hu hw rfl
  | transport a =>
    obtain ⟨flight, rfl⟩ := runTransport_next h
    exact .environment (hu.withInFlight flight)
  | construct who x y z =>
    simp only [eventBy, runConstruct] at h
    split at h
    · split at h <;> cases h
      · exact .environment ⟨hu.sender, hu.receiver, hu.unitCall⟩
      · exact .environment (hu.mapSide _ _)
    · cases h
  | link who socket up => cases h; exact .environment (hu.mapSide _ _)

/-- R173, R189, R225: with no event to come. -/
theorem stepCase_of_spontaneousBy {s t : State} (hu : s.unitCall = none) (h : spontaneousBy exec s = .next t) : StepCase s t := by
  have hs : BlockAs s s := ⟨rfl, rfl, hu⟩
  unfold spontaneousBy at h
  split at h
  · exact .instruction _ s hs h fun _ => ⟨rfl, nofun⟩
  · split at h
    · exact .instruction _ s hs h fun _ => ⟨rfl, nofun⟩
    · cases h
      exact .environment hs

/-- Everything a step can do to the block. -/
theorem step_cases {s t : State} (h : step s = .next t) : StepCase s t := by
  cases hc : s.unitCall with
  | some r =>
    rw [step_of_unitCall hc] at h
    obtain ⟨i, hi, -⟩ := performBy_next h
    exact .instruction i { s with unitCall := none } ⟨rfl, rfl, rfl⟩ hi fun hn => by simp [hc] at hn
  | none =>
    cases ha : s.agenda with
    | nil => exact stepCase_of_spontaneousBy hc ((step_of_agenda_nil hc ha).symm.trans h)
    | cons e rest => exact stepCase_of_eventBy (u := { s with agenda := rest }) ⟨rfl, rfl, hc⟩ ha ((step_of_agenda_cons hc ha).symm.trans h)

/-- Log 6: no step leaves an operation of a unit pending. -/
theorem step_unitCall {s t : State} (h : step s = .next t) : t.unitCall = none := by
  cases step_cases h with
  | instruction i u hu hi _ => exact (exec_unitCall hi).trans hu.unitCall
  | configure w u hu _ ht =>
    subst ht
    cases w with
    | timeoutMs | rxDedup => exact hu.unitCall
    | portData who | portAck who => cases who <;> exact hu.unitCall
  | environment hu => exact hu.unitCall

end Sys2Proof.Machine

namespace Sys2Proof.Safety

open Sys2Proof.Machine

/-! ### The invariant (R42, R218, R223, R224) -/

/-! #### The sender -/

/-- R43: the registers of a sender after reset. -/
theorem senderInv_reset (addr dest : Addr) : SenderInv (Sender.reset addr dest) := by
  constructor <;> simp [Sender.reset, txWaiting, txCode]

/-- R36: nothing in the invariant reads the scratch, the ports, `TIMEOUT_MS` or `tmr_count`. -/
theorem SenderInv.of_transfer_eq {n n' : Sender} (h : SenderInv n)
    (hn : n' = { n with common := n'.common, tmrCount := n'.tmrCount, timeoutMs := n'.timeoutMs })
    (hi : n'.common.initDone = n.common.initDone) (hh : n'.common.halted = n.common.halted) : SenderInv n' := by
  rw [hn]
  exact { h with activeStarted := by simpa [hi, hh] using h.activeStarted }

/-- R283: CFG.INIT finds no transfer. -/
theorem SenderInv.init {n : Sender} (h : SenderInv n) (he : initEnabled n.common = true) (ok : Bool) :
    SenderInv { n with common := initCommon ok n.common } :=
  { h with
    activeStarted := fun ha => by
      have hi := (h.activeStarted ha).1
      simp [initEnabled, hi] at he }

/-- The bytes stored from offset 0 have been written. -/
theorem written_writeBytes (m : Memory) (bytes : List Byte) : written (m.writeBytes 0 bytes) bytes.length := fun a ha => by
  have hr := Memory.read_writeBytes_inside m 0 bytes ha
  rw [Nat.zero_add] at hr
  simp [hr, ha]

@[simp] theorem txWaiting_loadTransfer (buf : List Byte) (dest : Addr) (n : Sender) :
    txWaiting (loadTransfer buf dest n).txState = false := by
  simp [loadTransfer, txWaiting, txCode]

/-- R186: a load finds the timer disarmed and begins a transfer. -/
theorem SenderInv.load {n : Sender} (h : SenderInv n) (hh : n.common.halted = false) (hi : n.common.initDone = true)
    (ha : n.txActive = false) (buf : List Byte) (dest : Addr) : SenderInv (loadTransfer buf dest n) where
  lastBound := by simp [loadTransfer]
  sentBound := Nat.zero_le _
  lastSent := by simp
  armedWaiting := by
    have hw : ¬ txWaiting n.txState = true := fun hw => by simp [h.waitingActive hw] at ha
    exact h.armedWaiting.trans (by simpa using hw)
  waitingActive := by simp
  callStride _ _ := Nat.dvd_zero _
  chunkStart := by simp
  chunkLength := by simp
  activeStarted _ := ⟨hi, hh⟩
  loaded _ := written_writeBytes n.txBuf buf

/-- R42, R188: a chunk sent from a multiple of 1400 inside the buffer. -/
theorem senderInv_chunkSent {n : Sender} (hh : n.common.halted = false) (hi : n.common.initDone = true) (ha : n.txActive = true)
    (hle : n.txSent ≤ n.txLen) (hdvd : Config.packetSize ∣ n.txSent) (hl : written n.txBuf n.txLen) (q : Bool) (acc : Crc)
    (out : Memory) : SenderInv (chunkSent q acc out n) where
  lastBound := by simpa using chunkSize_le n
  sentBound := by
    have hsize := chunkSize_le_left n
    show n.txSent + chunkSize n ≤ n.txLen
    omega
  lastSent _ := by simp
  armedWaiting := by simp [chunkSent]
  waitingActive _ := ha
  callStride hw := by simp at hw
  chunkStart _ := by simpa using hdvd
  chunkLength _ := by
    rw [chunkSent_txSent, chunkSent_txLast_toNat, Nat.add_sub_cancel]
    rfl
  activeStarted _ := ⟨hi, hh⟩
  loaded _ := hl

/-- R42, R191: an acknowledged chunk that is not the final one was full, so the next one starts at a multiple of 1400. -/
theorem SenderInv.ack {n : Sender} (h : SenderInv n) (hw : txWaiting n.txState = true) {c : Common}
    (hi : c.initDone = n.common.initDone) (hh : c.halted = n.common.halted) :
    SenderInv { n with
      common := c
      tmrArmed := false
      txState := waitForCallAfter (txSeq n.txState)
      txActive := n.txActive && !decide (n.txSent = n.txLen) } where
  lastBound := h.lastBound
  sentBound := h.sentBound
  lastSent := by simp
  armedWaiting := by simp
  waitingActive := by simp
  callStride _ ha := by
    have hne : n.txSent ≠ n.txLen := by simpa [h.waitingActive hw] using ha
    have hlen := h.chunkLength hw
    have hstart := h.chunkStart hw
    have hlast := h.lastSent hw
    have hsent := h.sentBound
    simp only [Config.packetSize] at *
    omega
  chunkStart := by simp
  chunkLength := by simp
  activeStarted ha := by
    rw [hi, hh]
    exact h.activeStarted (Bool.and_eq_true _ _ ▸ ha).1
  loaded ha := h.loaded (Bool.and_eq_true _ _ ▸ ha).1

/-- R42: every operation an agent starts keeps the invariant of the sender. -/
theorem SenderInv.of_move {i : Instr} {n n' : Sender} (h : SenderInv n) (hm : SenderMove i n n') (hs : startable i = true) :
    SenderInv n' := by
  cases hm with
  | idle => exact h
  | reset addr dest => exact senderInv_reset addr dest
  | init ok he => exact h.init he ok
  | scratch c _ hc => exact h.of_transfer_eq rfl hc.initDone hc.halted
  | tick =>
    unfold tickTimer
    split
    · exact h.of_transfer_eq rfl rfl rfl
    · exact h
  | timer d armed _ hi => simp [hi] at hs
  | lapse _ ha hw => simp [h.armedWaiting, hw] at ha
  | load buf dest hh hi ha => exact h.load hh hi ha buf dest
  | chunk acc out hh ha hw hle =>
    exact senderInv_chunkSent hh (h.activeStarted ha).1 ha hle (h.callStride hw ha) (h.loaded ha) _ acc out
  | again acc out hh hw hle =>
    have ha := h.waitingActive hw
    exact senderInv_chunkSent (n := { n with txSent := n.txSent - n.txLast.toNat }) hh (h.activeStarted ha).1 ha hle (h.chunkStart hw)
      (h.loaded ha) _ acc out
  | ack c _ hw hc => exact h.ack hw hc.initDone hc.halted

/-! #### The receiver -/

/-- R43: the registers of a receiver after reset. -/
theorem receiverInv_reset (addr peer : Addr) (bufMax : Option Nat) : ReceiverInv (Receiver.reset addr peer bufMax) where
  received a ha := absurd ha (Nat.not_lt_zero a)
  capacity m _ := Nat.zero_le m

/-- R224: what was written stays written when the buffer grows. -/
theorem written_append {m : Memory} {n : Nat} (h : written m n) (bytes : List Byte) :
    written (m.writeBytes n bytes) (n + bytes.length) := fun a ha => by
  rcases Nat.lt_or_ge a n with hlt | hge
  · rw [Memory.read_writeBytes_outside m bytes (.inl hlt)]
    exact h a hlt
  · obtain ⟨j, rfl⟩ := Nat.exists_eq_add_of_le hge
    rw [Memory.read_writeBytes_inside m n bytes (by omega)]
    simpa using ha

/-- R218: a payload that does not overflow fits. -/
theorem le_of_overflows_eq_false {n : Receiver} {f : Frame} (h : overflows n f = false) {m : Nat} (hm : n.rxBufMax = some m) :
    n.rxLen + f.payload.length ≤ m := by
  simpa [overflows, hm] using h

/-- R212, R216, R218: an accepted frame keeps the invariant. -/
theorem ReceiverInv.frameTaken {n : Receiver} (h : ReceiverInv n) {f : Frame} (hcap : isDuplicate n f = true ∨ overflows n f = false)
    (src : Addr) (c : Common) : ReceiverInv (frameTaken f src c n) := by
  unfold Machine.frameTaken
  by_cases hd : isDuplicate n f = true
  · rw [if_pos hd]
    exact ⟨h.received, h.capacity⟩
  · rw [if_neg hd]
    exact ⟨written_append h.received f.payload, fun m hm => le_of_overflows_eq_false (hcap.resolve_left hd) hm⟩

/-- R214: the end of a cycle empties the buffer. -/
theorem receiverInv_clearCycle (n : Receiver) : ReceiverInv (clearCycle n) where
  received a ha := absurd ha (Nat.not_lt_zero a)
  capacity m _ := Nat.zero_le m

/-- R218, R224: every operation keeps the invariant of the receiver. -/
theorem ReceiverInv.of_move {i : Instr} {n n' : Receiver} (h : ReceiverInv n) (hm : ReceiverMove i n n') : ReceiverInv n' := by
  cases hm with
  | idle => exact h
  | reset addr peer => exact receiverInv_reset addr peer _
  | init | scratch => exact ⟨h.received, h.capacity⟩
  | take f src c _ _ hcap => exact h.frameTaken hcap src c
  | deliver => exact receiverInv_clearCycle _

/-! #### The spaces (R60, log 14) -/

/-- The spaces of a sender are in canonical form. -/
structure SenderCanonical (n : Sender) : Prop where
  txBuf    : Memory.wf n.txBuf = true
  frameOut : Memory.wf n.common.frameOut = true
  frameIn  : Memory.wf n.common.frameIn = true

/-- The spaces of a receiver are in canonical form. -/
structure ReceiverCanonical (n : Receiver) : Prop where
  rxBuf    : Memory.wf n.rxBuf = true
  frameOut : Memory.wf n.common.frameOut = true
  frameIn  : Memory.wf n.common.frameIn = true

theorem memoriesCanonical_iff {s : State} : MemoriesCanonical s ↔ SenderCanonical s.sender ∧ ReceiverCanonical s.receiver :=
  ⟨fun h => ⟨⟨h.txBuf, h.senderFrameOut, h.senderFrameIn⟩, ⟨h.rxBuf, h.receiverFrameOut, h.receiverFrameIn⟩⟩,
    fun ⟨hs, hr⟩ => ⟨hs.txBuf, hr.rxBuf, hs.frameOut, hs.frameIn, hr.frameOut, hr.frameIn⟩⟩

theorem SenderCanonical.of_move {i : Instr} {n n' : Sender} (h : SenderCanonical n) (hm : SenderMove i n n') :
    SenderCanonical n' := by
  obtain ⟨hb, ho, hn⟩ := h
  cases hm with
  | idle | init | timer | lapse => exact ⟨hb, ho, hn⟩
  | reset => exact ⟨rfl, rfl, rfl⟩
  | scratch c _ hc | ack c _ _ hc => exact ⟨hb, hc.frameOut ho, hc.frameIn hn⟩
  | tick =>
    unfold tickTimer
    split <;> exact ⟨hb, ho, hn⟩
  | load buf => exact ⟨Memory.writeBytes_wf hb 0 buf, ho, hn⟩
  | chunk acc out _ _ _ _ hout | again acc out _ _ _ hout => exact ⟨hb, hout ho, hn⟩

theorem ReceiverCanonical.frameTaken {n : Receiver} (h : ReceiverCanonical n) (f : Frame) (src : Addr) {c : Common}
    (hc : Scratched n.common c) : ReceiverCanonical (frameTaken f src c n) := by
  refine ⟨?_, hc.frameOut h.frameOut, hc.frameIn h.frameIn⟩
  unfold Machine.frameTaken
  split
  · exact h.rxBuf
  · exact Memory.writeBytes_wf h.rxBuf _ _

theorem ReceiverCanonical.of_move {i : Instr} {n n' : Receiver} (h : ReceiverCanonical n) (hm : ReceiverMove i n n') :
    ReceiverCanonical n' := by
  cases hm with
  | idle | init => exact ⟨h.rxBuf, h.frameOut, h.frameIn⟩
  | reset => exact ⟨rfl, rfl, rfl⟩
  | scratch c _ hc => exact ⟨h.rxBuf, hc.frameOut h.frameOut, hc.frameIn h.frameIn⟩
  | take f src c _ hc => exact h.frameTaken f src hc
  | deliver f src c _ hc =>
    obtain ⟨hb, ho, hn⟩ := h.frameTaken f src hc
    exact ⟨hb, ho, hn⟩

/-! #### The system -/

/-- R36: a write to the configuration record keeps the invariant but for what is pending. -/
theorem applyConfig_keeps (w : ConfigWrite) {s : State} (hs : SenderInv s.sender) (hr : ReceiverInv s.receiver)
    (hm : MemoriesCanonical s) :
    SenderInv (applyConfig w s).sender ∧ ReceiverInv (applyConfig w s).receiver ∧ MemoriesCanonical (applyConfig w s) := by
  obtain ⟨m1, m2, m3, m4, m5, m6⟩ := hm
  have hr' : ∀ (c : Common) (dedup : Bool), ReceiverInv { s.receiver with common := c, rxDedup := dedup } :=
    fun _ _ => ⟨hr.received, hr.capacity⟩
  cases w with
  | timeoutMs v => exact ⟨hs.of_transfer_eq rfl rfl rfl, hr, ⟨m1, m2, m3, m4, m5, m6⟩⟩
  | rxDedup v => exact ⟨hs, hr' _ v, ⟨m1, m2, m3, m4, m5, m6⟩⟩
  | portData who p | portAck who p =>
    cases who with
    | sender => exact ⟨hs.of_transfer_eq rfl rfl rfl, hr, ⟨m1, m2, m3, m4, m5, m6⟩⟩
    | receiver => exact ⟨hs, hr' _ _, ⟨m1, m2, m3, m4, m5, m6⟩⟩

/-- R42: the invariant is one of the registers. -/
theorem SystemInv.blockAs {s u : State} (h : SystemInv s) (hu : BlockAs s u) : SystemInv u where
  sender := hu.sender ▸ h.sender
  receiver := hu.receiver ▸ h.receiver
  memories := by
    rw [memoriesCanonical_iff, hu.sender, hu.receiver]
    exact memoriesCanonical_iff.1 h.memories
  unitCall := hu.unitCall

/-- Settles O48: what a step can do, by the moves of sender and receiver. -/
theorem stepKeepsSystemInv : Obligations.StepKeepsSystemInv := by
  unfold Obligations.StepKeepsSystemInv
  intro s t h hstep
  have hcall := step_unitCall hstep
  cases step_cases hstep with
  | instruction i u hu hi hstart =>
    have hu := h.blockAs hu
    obtain ⟨hms, hmr⟩ := (acts_of_exec hi).moves
    obtain ⟨hcs, hcr⟩ := memoriesCanonical_iff.1 hu.memories
    exact ⟨hu.sender.of_move hms (hstart h.unitCall).startable, hu.receiver.of_move hmr,
      memoriesCanonical_iff.2 ⟨hcs.of_move hms, hcr.of_move hmr⟩, hcall⟩
  | configure w u hu _ ht =>
    subst ht
    have hu := h.blockAs hu
    obtain ⟨hs, hr, hm⟩ := applyConfig_keeps w hu.sender hu.receiver hu.memories
    exact ⟨hs, hr, hm, hcall⟩
  | environment hu => exact h.blockAs hu

/-- Settles O49: sender and receiver after a reset meet their invariant. -/
theorem powerOnMeetsSystemInv : Obligations.PowerOnMeetsSystemInv where
  sender := senderInv_reset 0 0
  receiver := receiverInv_reset 0 0 none
  memories := memoriesCanonical_iff.2 ⟨⟨rfl, rfl, rfl⟩, ⟨rfl, rfl, rfl⟩⟩
  unitCall := rfl

end Sys2Proof.Safety

namespace Sys2Proof.Machine

open Sys2Proof.Safety

/-! ### When halted (R35) -/

/-- R35: a guarded operation is refused where it is halted. -/
theorem unlessHalted_of_halted {who : Role} {s : State} (h : (commonOf who s).halted = true) (o : Outcome) :
    unlessHalted who s o = .refused (.notEnabled .halted) := by
  simp [unlessHalted, h]

/-- R283: what is halted cannot perform CFG.INIT. -/
theorem initEnabled_of_halted {c : Common} (h : c.halted = true) : initEnabled c = false := by
  simp [initEnabled, h]

/-- R35: nothing but RESET moves a halted sender. -/
theorem SenderMove.eq_of_halted {i : Instr} {n n' : Sender} (hm : SenderMove i n n') (h : n.common.halted = true)
    (hi : i ≠ .reset .sender) : n' = n := by
  cases hm with
  | idle => rfl
  | reset _ _ hr => exact absurd hr hi
  | init ok he => simp [initEnabled_of_halted h] at he
  | scratch _ hh | tick hh | timer _ _ hh | lapse hh | load _ _ hh | chunk _ _ hh | again _ _ hh | ack _ hh => simp [h] at hh

/-- R35: nothing but RESET moves a halted receiver. -/
theorem ReceiverMove.eq_of_halted {i : Instr} {n n' : Receiver} (hm : ReceiverMove i n n') (h : n.common.halted = true)
    (hi : i ≠ .reset .receiver) : n' = n := by
  cases hm with
  | idle => rfl
  | reset _ _ hr => exact absurd hr hi
  | init ok he => simp [initEnabled_of_halted h] at he
  | scratch _ hh | take _ _ _ hh | deliver _ _ _ hh => simp [h] at hh

/-- R35: once a machine is halted, nothing but its RESET changes what it shares with the other kind. -/
theorem commonOf_eq_of_halted {i : Instr} {who : Role} {s t : State} (h : exec i s = .next t) (hh : (commonOf who s).halted = true)
    (hi : i ≠ .reset who) : commonOf who t = commonOf who s := by
  obtain ⟨hms, hmr⟩ := (acts_of_exec h).moves
  cases who with
  | sender => exact congrArg Sender.common (hms.eq_of_halted hh hi)
  | receiver => exact congrArg Receiver.common (hmr.eq_of_halted hh hi)

theorem commonOf_blockAs {s u : State} (hu : BlockAs s u) (who : Role) : commonOf who u = commonOf who s := by
  cases who with
  | sender => exact congrArg Sender.common hu.sender
  | receiver => exact congrArg Receiver.common hu.receiver

/-- R36: a write to the configuration record does not touch `halted`. -/
theorem applyConfig_halted (w : ConfigWrite) (who : Role) (s : State) :
    (commonOf who (applyConfig w s)).halted = (commonOf who s).halted := by
  cases w with
  | timeoutMs | rxDedup => cases who <;> rfl
  | portData who' | portAck who' => cases who <;> cases who' <;> rfl

/-- Settles O46: of all that a step can do, only a RESET moves a halted machine, and an agent starts a RESET by its request. -/
theorem haltedUntilReset : Obligations.HaltedUntilReset := by
  unfold Obligations.HaltedUntilReset
  intro who s t hcall hh hstep
  cases step_cases hstep with
  | instruction i u hu hi hstart =>
    by_cases hr : i = .reset who
    · exact .inr ((hstart hcall).reset who hr)
    · have hk := commonOf_blockAs hu who
      rw [← hk] at hh
      exact .inl (commonOf_eq_of_halted hi hh hr ▸ hh)
  | configure w u hu _ ht =>
    subst ht
    exact .inl ((applyConfig_halted w who u).trans (commonOf_blockAs hu who ▸ hh))
  | environment hu => exact .inl (commonOf_blockAs hu who ▸ hh)

/-- R42, R35: a halted sender has no transfer, so no chunk awaits its acknowledgement and the timer is not armed. -/
theorem halted_sender_idle {s : State} (h : SystemInv s) (hh : s.sender.common.halted = true) :
    s.sender.txActive = false ∧ s.sender.tmrArmed = false := by
  have ha : s.sender.txActive = false := by
    by_contra hn
    simp [(h.sender.activeStarted (by simpa using hn)).2] at hh
  refine ⟨ha, ?_⟩
  by_contra hn
  have hw : txWaiting s.sender.txState = true := h.sender.armedWaiting ▸ (by simpa using hn)
  simp [h.sender.waitingActive hw] at ha

/-- Settles O47: each operation's own guard, and that nothing but RESET moves a halted machine. -/
theorem haltedInstanceDoesNothing : Obligations.HaltedInstanceDoesNothing := by
  unfold Obligations.HaltedInstanceDoesNothing
  refine ⟨fun who s hh => ⟨?_, fun ok => if_neg (by simp [initEnabled_of_halted hh])⟩,
    fun s hh => ⟨?_, fun buf dest => if_pos (by simp [hh]), ?_, ?_, ?_, ?_, fun h => halted_sender_idle h hh, ?_⟩, ?_⟩
  · rintro i (rfl | ⟨b, rfl⟩ | rfl | ⟨bytes, rfl⟩ | ⟨q, a, f, payload, rfl⟩ | ⟨wire, rfl⟩ | ⟨F, rfl⟩ | ⟨F, rfl⟩) <;>
      exact unlessHalted_of_halted hh _
  · rintro i (⟨d, rfl⟩ | rfl | rfl | rfl | rfl | rfl) <;> exact unlessHalted_of_halted (who := .sender) hh _
  · simp [exec, execTxSendPacket, sendPacketWith, sendEnabled, hh]
  · simp [sendEnabled, hh]
  · simp [expiryEnabled, hh]
  · simp [quiescent, hh]
  · intro i t hi h
    exact (acts_of_exec h).moves.1.eq_of_halted hh hi
  · intro s i t hh hi h
    exact (acts_of_exec h).moves.2.eq_of_halted hh hi

/-! ### The frozen configuration (R36, R76) -/

@[simp] theorem tickTimer_common (n : Sender) : (tickTimer n).common = n.common := by
  unfold tickTimer
  split <;> rfl

@[simp] theorem tickTimer_timeoutMs (n : Sender) : (tickTimer n).timeoutMs = n.timeoutMs := by
  unfold tickTimer
  split <;> rfl

/-- R36: an instruction that does not end in a state before CFG.INIT keeps the sender's configuration. -/
theorem SenderMove.keeps_config {i : Instr} {n n' : Sender} (hm : SenderMove i n n') (h : n'.common.initDone = true) :
    n'.timeoutMs = n.timeoutMs ∧ n'.common.portData = n.common.portData ∧ n'.common.portAck = n.common.portAck := by
  cases hm with
  | reset => cases h
  | scratch c _ hc | ack c _ _ hc => exact ⟨rfl, hc.portData, hc.portAck⟩
  | tick => simp
  | idle | init | timer | lapse | load | chunk | again => exact ⟨rfl, rfl, rfl⟩

@[simp] theorem frameTaken_rxDedup (f : Frame) (src : Addr) (c : Common) (n : Receiver) :
    (frameTaken f src c n).rxDedup = n.rxDedup := by
  unfold frameTaken
  split <;> rfl

/-- R36: an instruction that does not end in a state before CFG.INIT keeps the receiver's configuration. -/
theorem ReceiverMove.keeps_config {i : Instr} {n n' : Receiver} (hm : ReceiverMove i n n') (h : n'.common.initDone = true) :
    n'.rxDedup = n.rxDedup ∧ n'.common.portData = n.common.portData ∧ n'.common.portAck = n.common.portAck := by
  cases hm with
  | reset => cases h
  | idle | init => exact ⟨rfl, rfl, rfl⟩
  | scratch c _ hc => exact ⟨rfl, hc.portData, hc.portAck⟩
  | take f src c _ hc | deliver f src c _ hc => exact ⟨frameTaken_rxDedup f src c n, hc.portData, hc.portAck⟩

/-- R36: no write reaches the configuration record of a sender that has performed CFG.INIT. -/
theorem applyConfig_sender {w : ConfigWrite} {s : State} (hw : configEnabled w s = true) (hi : s.sender.common.initDone = true) :
    (applyConfig w s).sender = s.sender := by
  cases w with
  | timeoutMs => simp [configEnabled, hi] at hw
  | rxDedup => rfl
  | portData who | portAck who =>
    cases who with
    | sender => simp [configEnabled, hi] at hw
    | receiver => rfl

/-- R36: no write reaches the configuration record of a receiver that has performed CFG.INIT. -/
theorem applyConfig_receiver {w : ConfigWrite} {s : State} (hw : configEnabled w s = true)
    (hi : s.receiver.common.initDone = true) : (applyConfig w s).receiver = s.receiver := by
  cases w with
  | timeoutMs => rfl
  | rxDedup => simp [configEnabled, hi] at hw
  | portData who | portAck who =>
    cases who with
    | sender => rfl
    | receiver => simp [configEnabled, hi] at hw

/-- Settles O57: of all that a step can do, only a RESET and a write before CFG.INIT reach the configuration. -/
theorem configurationFrozenAfterInit : Obligations.ConfigurationFrozenAfterInit := by
  unfold Obligations.ConfigurationFrozenAfterInit
  intro s t hstep
  cases step_cases hstep with
  | instruction i u hu hi _ =>
    obtain ⟨hms, hmr⟩ := (acts_of_exec hi).moves
    rw [hu.sender] at hms
    rw [hu.receiver] at hmr
    exact ⟨fun _ => hms.keeps_config, fun _ => hmr.keeps_config⟩
  | configure w u hu hw ht =>
    subst ht
    rw [← hu.sender, ← hu.receiver]
    exact ⟨fun hi _ => by simp [applyConfig_sender hw hi], fun hi _ => by simp [applyConfig_receiver hw hi]⟩
  | environment hu =>
    rw [hu.sender, hu.receiver]
    exact ⟨fun _ _ => ⟨rfl, rfl, rfl⟩, fun _ _ => ⟨rfl, rfl, rfl⟩⟩

/-! ### The expiry (R173) -/

/-- R188, R224: `EmitChunk` goes on where the buffer has been written and the counters are in order. -/
theorem exists_emitChunk_next {k : Config.Parameters} {q : Bool} {s : State} (hle : s.sender.txSent ≤ s.sender.txLen)
    (hl : written s.sender.txBuf s.sender.txLen) : ∃ t, emitChunk k q s = .next t := by
  have hsize := chunkSize_le_left s.sender
  obtain ⟨b, hb⟩ := Memory.readBytes_of_written (m := s.sender.txBuf) (k := s.sender.txSent) (n := chunkSize s.sender)
    fun i hi => hl _ (by omega)
  exact ⟨_, emitChunk_next.2 ⟨hle, b, hb, rfl⟩⟩

/-- R190: in every state that meets the invariant a `Timeout` in a `WaitForAck` state goes on, also once the timer is disarmed. -/
theorem exists_takeTimeout_next {k : Config.Parameters} {s u : State} (h : SenderInv s.sender)
    (hw : txWaiting s.sender.txState = true) {armed : Bool} (hu : u.sender = { s.sender with tmrArmed := armed }) :
    ∃ t, takeTimeout k u = .next t := by
  obtain ⟨t, ht⟩ := exists_emitChunk_next (k := k) (q := txSeq u.sender.txState) (s := rollBack u)
    (by rw [rollBack_sender, hu]; exact (Nat.sub_le _ _).trans h.sentBound)
    (by rw [rollBack_sender, hu]; exact h.loaded (h.waitingActive hw))
  exact ⟨t, takeTimeout_next.2 (.inl ⟨by rw [hu]; exact hw, by rw [hu]; exact h.lastSent hw, ht⟩)⟩

/-- Settles O30: in the invariant an armed timer means a chunk in hand of a started sender, whose `Timeout` always goes on. -/
theorem expiryExactlyWhenDue : Obligations.ExpiryExactlyWhenDue := by
  unfold Obligations.ExpiryExactlyWhenDue
  intro s h
  constructor
  · rintro ⟨t, ht⟩
    obtain ⟨-, ht⟩ := unlessHalted_next.1 ht
    split at ht
    · rename_i hd
      obtain ⟨⟨-, ha⟩, hc⟩ : (_ ∧ s.sender.tmrArmed = true) ∧ s.sender.tmrCount = 0 := by simpa [expiryEnabled] using hd
      exact ⟨ha, hc⟩
    · cases ht
  · rintro ⟨ha, hc⟩
    have hw : txWaiting s.sender.txState = true := h.sender.armedWaiting ▸ ha
    have hh := (h.sender.activeStarted (h.sender.waitingActive hw)).2
    obtain ⟨t, ht⟩ := exists_takeTimeout_next (k := hardware) h.sender hw (cancelTimer_sender s)
    exact ⟨t, unlessHalted_next.2 ⟨hh, by rw [if_pos (by simp [expiryEnabled, hh, ha, hc]), ht]⟩⟩

end Sys2Proof.Machine

namespace Sys2Proof.Machine

open Sys2Proof.Safety

/-! ### The two machines share no state (R20, R72, R270) -/

/-- What `proj` reads of the next state, if there is one. -/
def after {α : Type} (proj : State → α) (o : Outcome) : Option α := (nextState? o).map proj

section
variable {α : Type} (proj : State → α)

@[simp] theorem after_next (s : State) : after proj (.next s) = some (proj s) := rfl
@[simp] theorem after_fault (r : Fault) : after proj (.fault r) = none := rfl
@[simp] theorem after_refused (r : Refusal) : after proj (.refused r) = none := rfl

@[simp] theorem after_ite (c : Prop) [Decidable c] (o o' : Outcome) :
    after proj (if c then o else o') = if c then after proj o else after proj o' := apply_ite _ _ _ _

@[simp] theorem after_unlessHalted (who : Role) (s : State) (o : Outcome) :
    after proj (unlessHalted who s o) = if (commonOf who s).halted then none else after proj o := by
  simp [unlessHalted]

@[simp] theorem after_whenStarted (s : State) (o : Outcome) :
    after proj (whenStarted s o) =
      if s.sender.common.halted then none else if s.sender.common.initDone then after proj o else none := by
  simp [whenStarted]

end

theorem after_unlessHalted_congr {α : Type} {proj : State → α} {who : Role} {s s' : State} {o o' : Outcome}
    (hc : commonOf who s = commonOf who s') (h : after proj o = after proj o') :
    after proj (unlessHalted who s o) = after proj (unlessHalted who s' o') := by
  rw [after_unlessHalted, after_unlessHalted, hc, h]

/-- Outcomes that look alike go on alike. -/
theorem exists_next_of_after_eq {α : Type} {proj : State → α} {o o' : Outcome} {t : State} (h : after proj o = after proj o')
    (ho : o = .next t) : ∃ t', o' = .next t' ∧ proj t' = proj t := by
  subst ho
  cases o' with
  | next t' => exact ⟨t', rfl, (Option.some.inj h).symm⟩
  | fault | refused => cases h

/-! #### The operations both machines have -/

/-- `s` and `s'` are alike to `proj`, which reads registers of `who`, also after a change of what both kinds hold. -/
structure Alike {α : Type} (proj : State → α) (who : Role) (s s' : State) : Prop where
  common : commonOf who s = commonOf who s'
  same   : proj s = proj s'
  map    : ∀ f, proj (mapCommon who f s) = proj (mapCommon who f s')
  emit   : ∀ o x, proj (emit o x) = proj x

theorem alike_sender {s s' : State} (h : s.sender = s'.sender) : Alike State.sender .sender s s' where
  common := congrArg Sender.common h
  same := h
  map f := by simp [h]
  emit _ _ := rfl

theorem alike_receiver {s s' : State} (h : s.receiver = s'.receiver) : Alike State.receiver .receiver s s' where
  common := congrArg Receiver.common h
  same := h
  map f := by simp [h]
  emit _ _ := rfl

/-- R108: CFG.INIT and the operations of the checksum unit and of the codec. -/
def onBothRoles (i : Instr) : Bool :=
  match i with
  | .cfgInit _ _ | .crcInit _ | .crcUpdate _ _ | .crcRead _ | .crcCompute _ _ => true
  | .codecEncode _ _ _ _ _ | .codecDecode _ _ | .codecIsValid _ _ | .codecIsWellFormed _ _ => true
  | _ => false

/-- R20: an operation both machines have does the same to registers that look alike. -/
theorem Alike.after_execWith {α : Type} {proj : State → α} {s s' : State} {k : Config.Parameters} {i : Instr}
    (h : Alike proj (performer i) s s') (hi : onBothRoles i = true) :
    after proj (execWith k i s) = after proj (execWith k i s') := by
  obtain ⟨hc, hs, hm, he⟩ := h
  cases i with
  | cfgInit who ok =>
    simp only [performer] at hc hm
    simp [execWith, execCfgInit, hc, hm, he]
  | crcInit who =>
    exact after_unlessHalted_congr hc (congrArg some (hm _))
  | crcUpdate who b =>
    refine after_unlessHalted_congr hc (congrArg some ?_)
    simp only [performer] at hc hm
    rw [hc]
    exact hm _
  | crcRead who | codecIsWellFormed who =>
    exact after_unlessHalted_congr hc (congrArg some (by rw [he, he, hs]))
  | crcCompute who | codecIsValid who =>
    exact after_unlessHalted_congr hc (congrArg some (by rw [he, he]; exact hm _))
  | codecEncode who q a f payload =>
    refine after_unlessHalted_congr hc ?_
    simp only [performer] at hm
    simp [writeFrame_eq, he, hm, hs]
  | codecDecode who wire =>
    refine after_unlessHalted_congr hc ?_
    cases parseFrame wire <;> simp [he, hs]
  | _ => cases hi

/-! #### The sender's registers depend on the sender's registers alone -/

section
variable {s s' : State} (hs : s.sender = s'.sender)
include hs

theorem after_sender_emitChunk (k : Config.Parameters) (q : Bool) :
    after State.sender (emitChunk k q s) = after State.sender (emitChunk k q s') := by
  unfold emitChunk
  rw [hs]
  split
  · rfl
  · split
    · rfl
    · simp [emitBytes_sender, hs]

theorem after_sender_takeTimeout (k : Config.Parameters) :
    after State.sender (takeTimeout k s) = after State.sender (takeTimeout k s') := by
  have hroll : (rollBack s).sender = (rollBack s').sender := by simp [hs]
  simp [takeTimeout, hs, after_sender_emitChunk hroll]

theorem after_sender_sendPacketWith (k : Config.Parameters) :
    after State.sender (sendPacketWith k s) = after State.sender (sendPacketWith k s') := by
  have key (q q' : TxState) (x : State) : after State.sender (andThen (emitChunk k (txSeq q') x) fun t => .next (setTxState q t)) =
      (after State.sender (emitChunk k (txSeq q') x)).map fun n => { n with txState := q } := by
    cases emitChunk k (txSeq q') x <;> rfl
  simp [sendPacketWith, sendEnabled, key, hs, after_sender_emitChunk hs]

theorem after_sender_expireWith (k : Config.Parameters) :
    after State.sender (expireWith k s) = after State.sender (expireWith k s') := by
  have hcancel : (cancelTimer s).sender = (cancelTimer s').sender := by simp [hs]
  simp [expireWith, expiryEnabled, hs, after_sender_takeTimeout hcancel]

theorem after_sender_receiveAtSender (k : Config.Parameters) (wire : List Byte) (src : Addr) :
    after State.sender (receiveAtSender k wire src s) = after State.sender (receiveAtSender k wire src s') := by
  have hack (f : Frame) : (takeAck (noteAck k wire f s)).sender = (takeAck (noteAck k wire f s')).sender := by
    rw [takeAck_sender, takeAck_sender, noteAck_sender, noteAck_sender, hs]
  have hready : senderReady s = senderReady s' := by simp only [senderReady, hs]
  unfold receiveAtSender
  cases acceptWith k wire with
  | none => simp [hready, hs]
  | some f => simp [hready, hack, hs]

/-- R20: what an operation of the sender does to its registers does not depend on the rest of the state, but for the free value that a
RESET draws (log 8). -/
theorem after_sender_execWith {k : Config.Parameters} {i : Instr} (hp : performer i = .sender) (hf : s.free = s'.free) :
    after State.sender (execWith k i s) = after State.sender (execWith k i s') := by
  cases i with
  | data0 dest | data0f dest | ack0 dest | ack0f dest | data1 dest | data1f dest | ack1 dest | ack1f dest =>
    obtain rfl : dest = .sender := hp
    exact after_sender_receiveAtSender hs k _ _
  | txRecv wire src => exact after_sender_receiveAtSender hs k wire src
  | rxRecv => cases hp
  | cfgInit | crcInit | crcUpdate | crcRead | crcCompute | codecEncode | codecDecode | codecIsValid | codecIsWellFormed =>
    exact Alike.after_execWith (hp ▸ alike_sender hs) rfl
  | reset who =>
    obtain rfl : who = .sender := hp
    simp [execWith, execReset, hs, hf]
  | tmrStart | tmrCancel => simp [execWith, execTmrStart, execTmrCancel, hs]
  | tmrTick => exact after_unlessHalted_congr (congrArg Sender.common hs) (by simp [hs])
  | tmrExpire => exact after_sender_expireWith hs k
  | txLoad => simp [execWith, execTxLoad, hs]
  | txSendPacket => exact after_sender_sendPacketWith hs k
  | txTimeout => simp [execWith, timeoutWith, hs, after_sender_takeTimeout hs]
  | txPacketReceived => simp [execWith, execTxPacketReceived, takeAck_sender, hs]

end

/-! #### The receiver's registers depend on the receiver's registers alone -/

section
variable {s s' : State} (hr : s.receiver = s'.receiver)
include hr

theorem after_receiver_deliverBuffer : after State.receiver (deliverBuffer s) = after State.receiver (deliverBuffer s') := by
  unfold deliverBuffer
  rw [hr]
  split <;> simp [hr]

theorem after_receiver_acceptAtReceiver (k : Config.Parameters) (wire : List Byte) (src : Addr) (f : Frame) :
    after State.receiver (acceptAtReceiver k wire src f s) = after State.receiver (acceptAtReceiver k wire src f s') := by
  have htaken : (sendAck k (sequenceBit f) (takeIn wire src f s)).receiver =
      (sendAck k (sequenceBit f) (takeIn wire src f s')).receiver := by
    rw [sendAck_takeIn_receiver, sendAck_takeIn_receiver, hr]
  unfold acceptAtReceiver
  rw [hr]
  split
  · simp [hr]
  · split
    · exact after_receiver_deliverBuffer htaken
    · simp [htaken]

theorem after_receiver_receiveAtReceiver (k : Config.Parameters) (wire : List Byte) (src : Addr) :
    after State.receiver (receiveAtReceiver k wire src s) = after State.receiver (receiveAtReceiver k wire src s') := by
  have hready : receiverReady s = receiverReady s' := by simp only [receiverReady, hr]
  unfold receiveAtReceiver
  cases acceptWith k wire with
  | none => simp [hready, hr]
  | some f => simp [hready, after_receiver_acceptAtReceiver hr, hr]

/-- R20: what an operation of the receiver does to its registers does not depend on the rest of the state, but for the free value that a
RESET draws (log 8). -/
theorem after_receiver_execWith {k : Config.Parameters} {i : Instr} (hp : performer i = .receiver) (hf : s.free = s'.free) :
    after State.receiver (execWith k i s) = after State.receiver (execWith k i s') := by
  cases i with
  | data0 dest | data0f dest | ack0 dest | ack0f dest | data1 dest | data1f dest | ack1 dest | ack1f dest =>
    obtain rfl : dest = .receiver := hp
    exact after_receiver_receiveAtReceiver hr k _ _
  | rxRecv wire src => exact after_receiver_receiveAtReceiver hr k wire src
  | cfgInit | crcInit | crcUpdate | crcRead | crcCompute | codecEncode | codecDecode | codecIsValid | codecIsWellFormed =>
    exact Alike.after_execWith (hp ▸ alike_receiver hr) rfl
  | reset who =>
    obtain rfl : who = .receiver := hp
    simp [execWith, execReset, hr, hf]
  | _ => cases hp

end

/-- R20: an operation leaves the registers and the side of the machine that does not perform it. -/
theorem Acts.frame {i : Instr} {s t : State} (h : Acts i s t) :
    (performer i = .sender → t.receiver = s.receiver ∧ t.receiverSide = s.receiverSide) ∧
      (performer i = .receiver → t.sender = s.sender ∧ t.senderSide = s.senderSide) := by
  cases h with
  | sender hp _ hr hs => exact ⟨fun _ => ⟨hr, hs⟩, fun hq => by simp [hp] at hq⟩
  | receiver hp _ hr hs => exact ⟨fun hq => by simp [hp] at hq, fun _ => ⟨hr, hs⟩⟩

/-- Settles O58: the frame of every instruction, and that the registers after it are a function of the performing machine's own. -/
theorem instancesShareNoState : Obligations.InstancesShareNoState := by
  unfold Obligations.InstancesShareNoState
  refine ⟨fun k i s t h => (acts_of_execWith h).frame, fun k i s s' t hf h => ⟨fun hp hs _ => ?_, fun hp hr _ => ?_⟩⟩
  · exact exists_next_of_after_eq (after_sender_execWith hs hp hf) h
  · exact exists_next_of_after_eq (after_receiver_execWith hr hp hf) h

end Sys2Proof.Machine

namespace Sys2Proof.Machine

open Sys2Proof.Safety

/-! ### The checksum generator (R130 to R136) -/

/-- R132: shift steps, as an iterate. -/
theorem crcShifts_eq_iterate (poly : Crc) (n : Nat) (t : Crc) : crcShifts poly n t = (crcShift poly)^[n] t := by
  induction n generalizing t with
  | zero => rfl
  | succ n ih => exact ih (crcShift poly t)

/-- R132: a shift step, as one exclusive or. -/
theorem crcShift_eq_xor (poly t : Crc) : crcShift poly t = t >>> 1 ^^^ (if t.getLsbD 0 then poly else 0) := by
  unfold crcShift
  split <;> simp

/-- R132: a shift step is linear over GF(2). -/
theorem crcShift_xor (poly x y : Crc) : crcShift poly (x ^^^ y) = crcShift poly x ^^^ crcShift poly y := by
  have hpoly : (if (x ^^^ y).getLsbD 0 then poly else 0) = (if x.getLsbD 0 then poly else 0) ^^^ (if y.getLsbD 0 then poly else 0) := by
    rw [BitVec.getLsbD_xor]
    cases x.getLsbD 0 <;> cases y.getLsbD 0 <;> simp
  rw [crcShift_eq_xor, crcShift_eq_xor, crcShift_eq_xor, hpoly, BitVec.ushiftRight_xor_distrib]
  ac_rfl

theorem crcShifts_xor (poly : Crc) (n : Nat) (x y : Crc) :
    crcShifts poly n (x ^^^ y) = crcShifts poly n x ^^^ crcShifts poly n y := by
  induction n generalizing x y with
  | zero => rfl
  | succ n ih => simp only [crcShifts, crcShift_xor, ih]

/-- R132: only zero is shifted to zero, since the polynomial's top bit is set and a right shift clears it. -/
theorem eq_zero_of_crcShift_eq_zero {poly t : Crc} (hp : poly.getLsbD 31 = true) (h : crcShift poly t = 0) : t = 0 := by
  have hbit (j : Nat) : (crcShift poly t).getLsbD j = false := by rw [h]; simp
  unfold crcShift at hbit
  split at hbit
  · have h31 := hbit 31
    rw [BitVec.getLsbD_xor, BitVec.getLsbD_ushiftRight, hp, BitVec.getLsbD_of_ge t _ (by omega)] at h31
    cases h31
  · rename_i h0
    refine BitVec.eq_of_getLsbD_eq fun j _ => ?_
    rw [show (0 : Crc).getLsbD j = false from BitVec.getLsbD_zero]
    cases j with
    | zero => simpa using h0
    | succ j => simpa [Nat.add_comm] using hbit j

theorem crcShifts_injective {poly : Crc} (hp : poly.getLsbD 31 = true) (n : Nat) : Function.Injective (crcShifts poly n) := by
  induction n with
  | zero => exact fun _ _ h => h
  | succ n ih =>
    intro x y h
    have hxy : crcShift poly (x ^^^ y) = 0 := by rw [crcShift_xor, ih h, BitVec.xor_self]; rfl
    exact BitVec.xor_eq_zero_iff.1 (eq_zero_of_crcShift_eq_zero hp hxy)

/-- R132: for each byte the update is a bijection of the accumulator. -/
theorem crcStep_bijective (b : Byte) : Function.Bijective fun acc => crcStep Config.crc acc b := by
  refine Finite.injective_iff_bijective.1 fun x y h => ?_
  exact (BitVec.xor_left_inj _).1 (crcShifts_injective (by decide) 8 h)

/-- R132: the update is linear over GF(2). -/
theorem crcStep_xor (p : Config.CrcParams) (x y : Crc) (b c : Byte) :
    crcStep p (x ^^^ y) (b ^^^ c) = crcStep p x b ^^^ crcStep p y c := by
  simp only [crcStep]
  rw [← crcShifts_xor, BitVec.setWidth_xor]
  congr 1
  ac_rfl

/-- R131: CRC.INIT. -/
theorem exec_crcInit {who : Role} {s : State} (h : (commonOf who s).halted = false) :
    exec (.crcInit who) s = .next (setCrc who 0xFFFFFFFF s) :=
  unlessHalted_eq h _

/-- R132: CRC.UPDATE. -/
theorem exec_crcUpdate {who : Role} {s : State} (h : (commonOf who s).halted = false) (b : Byte) :
    exec (.crcUpdate who b) s = .next (setCrc who (crcStep Config.crc (commonOf who s).crcAcc b) s) :=
  unlessHalted_eq h _

/-- R133: CRC.READ. -/
theorem exec_crcRead {who : Role} {s : State} (h : (commonOf who s).halted = false) :
    exec (.crcRead who) s = .next (emit (.result who (.crc ((commonOf who s).crcAcc ^^^ 0xFFFFFFFF))) s) :=
  unlessHalted_eq h _

/-- R134: CRC.COMPUTE. -/
theorem exec_crcCompute {who : Role} {s : State} (h : (commonOf who s).halted = false) (bytes : List Byte) :
    exec (.crcCompute who bytes) s = .next (emit (.result who (.crc (crc32 bytes))) (setCrc who (crc32 bytes ^^^ 0xFFFFFFFF) s)) :=
  unlessHalted_eq h _

@[simp] theorem commonOf_setCrc (who : Role) (acc : Crc) (s : State) :
    commonOf who (setCrc who acc s) = { commonOf who s with crcAcc := acc } := by cases who <;> rfl

@[simp] theorem setCrc_setCrc (who : Role) (acc acc' : Crc) (s : State) : setCrc who acc (setCrc who acc' s) = setCrc who acc s := by
  cases who <;> rfl

/-- An accumulator written with its own value. -/
theorem setCrc_crcAcc (who : Role) (s : State) : setCrc who (commonOf who s).crcAcc s = s := by cases who <;> rfl

/-- R136 (c): CRC.UPDATE for each byte of a sequence leaves the accumulator of the whole sequence. -/
theorem updateAll_eq {who : Role} {s : State} (h : (commonOf who s).halted = false) (bytes : List Byte) :
    updateAll who bytes s = .next (setCrc who (crcRun Config.crc (commonOf who s).crcAcc bytes) s) := by
  induction bytes generalizing s with
  | nil => exact congrArg Host.Outcome.next (setCrc_crcAcc who s).symm
  | cons b bs ih =>
    rw [updateAll, exec_crcUpdate h, andThen, ih (by simpa using h)]
    simp [crcRun]

/-- Settles O5: the accumulator is written and read back. -/
theorem crcInitSetsAllOnes : Obligations.CrcInitSetsAllOnes := by
  unfold Obligations.CrcInitSetsAllOnes
  refine fun who s => ⟨rfl, fun h => ⟨_, exec_crcInit h, rfl, ?_⟩⟩
  refine (exec_crcRead (s := setCrc who 0xFFFFFFFF s) (by simpa using h)).trans ?_
  rw [commonOf_setCrc]
  dsimp only
  rw [BitVec.xor_self]
  rfl

/-- Settles O6: the eight shift steps, of which each is linear and injective. -/
theorem crcUpdateShiftsEightTimes : Obligations.CrcUpdateShiftsEightTimes := by
  unfold Obligations.CrcUpdateShiftsEightTimes
  refine ⟨fun _ _ => rfl, fun who b s h => ?_, crcStep_bijective, crcStep_xor Config.crc, by decide, by decide, by decide +kernel⟩
  rw [exec_crcUpdate h, crcStep, crcShifts_eq_iterate]
  cases who <;> rfl

/-- Settles O8: the accumulator after CRC.INIT and CRC.UPDATE of each byte is the one CRC.COMPUTE leaves. -/
theorem crcComputeIsInitUpdatesRead : Obligations.CrcComputeIsInitUpdatesRead := by
  unfold Obligations.CrcComputeIsInitUpdatesRead
  refine ⟨fun _ _ => rfl, fun who bytes s h => ?_, rfl, by decide +kernel⟩
  have hinit : (commonOf who (setCrc who 0xFFFFFFFF s)).halted = false := by simpa using h
  have hrun : crcRun Config.crc 0xFFFFFFFF bytes = crc32 bytes ^^^ 0xFFFFFFFF := (crcAfter_hardware bytes).symm
  have hupdates : andThen (exec (.crcInit who) s) (updateAll who bytes) = .next (setCrc who (crc32 bytes ^^^ 0xFFFFFFFF) s) := by
    rw [exec_crcInit h, andThen]
    refine (updateAll_eq hinit bytes).trans ?_
    rw [commonOf_setCrc, hrun, setCrc_setCrc]
  refine ⟨_, hupdates, ?_, exec_crcCompute h bytes⟩
  rw [exec_crcCompute h, exec_crcRead (by simpa using h), commonOf_setCrc]
  simp

end Sys2Proof.Machine

namespace Sys2Proof.Machine

open Sys2Proof.Safety

/-! ### The codec's operands (R107, log 3) -/

@[simp] theorem bitOperand_bitByte (b : Bool) : bitOperand (bitByte b) = .ok b := by cases b <;> rfl

theorem encodeOperands_bitByte (who : Role) (q a f : Bool) (payload : List Byte) :
    encodeOperands who (bitByte q :: bitByte a :: bitByte f :: payload) = .ok (.codecEncode who q a f payload) := by
  simp [encodeOperands]

theorem decode_isValid (who : Role) (args : List Byte) :
    decode (.op who (0x22 :: args)) = (frameOperand args).map (.codecIsValid who) := rfl

theorem decode_isWellFormed (who : Role) (args : List Byte) :
    decode (.op who (0x23 :: args)) = (frameOperand args).map (.codecIsWellFormed who) := rfl

/-- R134: the accumulator a checksum computation leaves, on this hardware. -/
theorem crcAfter_hardware_eq_xor (bytes : List Byte) : crcAfter hardware bytes = crc32 bytes ^^^ 0xFFFFFFFF := rfl

/-- R153: a frame record of legal length survives its operand layout. -/
theorem frameOperand_frameWire {F : Frame} (h : F.payload.length ≤ Config.packetSize) : frameOperand (frameWire F) = .ok F := by
  simp [frameOperand, parseFrame_frameWire F h]

/-! ### ENCODE (R150, R151) -/

/-- R92 to R94: the header ENCODE builds. -/
theorem headerBytes_zextBit (q a f : Bool) : headerBytes (zextBit 32 q) (zextBit 8 a) (zextBit 8 f) = prefixBytes q a f := by
  cases q <;> cases a <;> cases f <;> rfl

/-- R98: the bytes the checksum of a built frame covers. -/
theorem coveredBytes_buildWith (k : Config.Parameters) (q a f : Bool) (payload : List Byte) :
    coveredBytes (buildWith k q a f payload) = prefixBytes q a f ++ payload :=
  congrArg (· ++ payload) (headerBytes_zextBit q a f)

/-- R95, R96: the checksum field holds the 32 bits of the checksum, extended by zeros. -/
theorem encodeBytes_eq (q a f : Bool) (payload : List Byte) :
    encodeBytes q a f payload = prefixBytes q a f ++ be 8 (crc32 (prefixBytes q a f ++ payload)).toNat ++ payload := by
  have hc : (buildWith hardware q a f payload).cks.toNat = (crc32 (prefixBytes q a f ++ payload)).toNat := by
    rw [← headerBytes_zextBit]
    exact BitVec.toNat_setWidth_of_le (by decide)
  rw [encodeBytes, encodeWith, frameWire, hc]
  exact congrArg (· ++ _ ++ payload) (headerBytes_zextBit q a f)

/-- R15: a block write stores its bytes. -/
theorem stored_writeBytes (m : Memory) (k : Nat) (bytes : List Byte) : stored m (m.writeBytes k bytes) k bytes :=
  ⟨fun _ hi => Memory.read_writeBytes_inside m k bytes hi, fun _ ha => Memory.read_writeBytes_outside m bytes ha⟩

/-- What sender and receiver both hold is read in the state it is changed in. -/
theorem mapCommon_congr {who : Role} {f g : Common → Common} {s : State} (h : f (commonOf who s) = g (commonOf who s)) :
    mapCommon who f s = mapCommon who g s := by
  cases who with
  | sender => exact congrArg (fun c => { s with sender := { s.sender with common := c } }) h
  | receiver => exact congrArg (fun c => { s with receiver := { s.receiver with common := c } }) h

/-- Settles O12: the wire bytes of a built frame, by field. -/
theorem encodeBuildsWireFrame : Obligations.EncodeBuildsWireFrame := by
  unfold Obligations.EncodeBuildsWireFrame
  refine ⟨encodeOperands_bitByte, fun who q a f payload s h hlen => ?_, fun who q a f payload s h hlen => ?_, by decide +kernel⟩
  · refine ⟨encodeBytes q a f payload, _, encodeBytes_eq q a f payload, frameWire_length _,
      stored_writeBytes (commonOf who s).frameOut 0 _, ?_⟩
    rw [exec, execCodecEncode, encodeOpWith, unlessHalted_eq h, if_neg (Nat.not_lt.2 hlen), writeFrame_eq, coveredBytes_buildWith,
      crcAfter_hardware_eq_xor]
    exact congrArg (fun t => Host.Outcome.next (emit _ t)) (mapCommon_congr rfl)
  · rw [exec, execCodecEncode, encodeOpWith, unlessHalted_eq h, if_pos hlen, raiseError_eq]

/-! ### DECODE (R152) -/

/-- R14: one byte more of a slice is one byte more at the low end of its big-endian value. -/
theorem fromBe_snoc (bytes : List Byte) (b : Byte) : fromBe (bytes ++ [b]) = fromBe bytes * 256 + b.toNat := by
  induction bytes with
  | nil => simp [fromBe]
  | cons c bytes ih =>
    simp only [List.cons_append, fromBe, ih, List.length_append, List.length_singleton, pow_succ]
    ring

theorem ofNat_append_byte (w v : Nat) (b : Byte) : BitVec.ofNat w v ++ b = BitVec.ofNat (w + 8) (v * 256 + b.toNat) := by
  have hb := b.isLt
  have hmod : (2 ^ 8 * v + b.toNat) % 2 ^ 8 = b.toNat := by omega
  have hdiv : (2 ^ 8 * v + b.toNat) / 2 ^ 8 = v := by omega
  apply BitVec.eq_of_toNat_eq
  calc (BitVec.ofNat w v ++ b).toNat = v % 2 ^ w * 2 ^ 8 + b.toNat := by
        rw [BitVec.toNat_append, ← Nat.shiftLeft_add_eq_or_of_lt hb, Nat.shiftLeft_eq, BitVec.toNat_ofNat]
    _ = (2 ^ 8 * v + b.toNat) % (2 ^ 8 * 2 ^ w) := by rw [Nat.mod_mul, hmod, hdiv]; ring
    _ = (BitVec.ofNat (w + 8) (v * 256 + b.toNat)).toNat := by rw [BitVec.toNat_ofNat, pow_add]; ring_nf

/-- R152: a field of the wire frame, as the bytes at its offsets. -/
theorem ofNat_fromBe_slice_succ {wire : List Byte} {a n : Nat} (h : a + n < wire.length) (w : Nat) :
    BitVec.ofNat (w + 8) (fromBe (slice a (a + (n + 1)) wire)) =
      BitVec.ofNat w (fromBe (slice a (a + n) wire)) ++ wire.getD (a + n) 0 := by
  have hs : slice a (a + (n + 1)) wire = slice a (a + n) wire ++ [wire.getD (a + n) 0] := by
    simp only [slice, Nat.add_sub_cancel_left]
    rw [List.take_add_one, List.getElem?_drop, List.getElem?_eq_getElem h, List.getD_eq_getElem _ _ h]
    rfl
  rw [hs, fromBe_snoc, ofNat_append_byte]

/-- R92: a field of four bytes. -/
theorem ofNat_fromBe_slice_four {wire : List Byte} {a : Nat} (h : a + 3 < wire.length) :
    BitVec.ofNat 32 (fromBe (slice a (a + 4) wire)) =
      wire.getD a 0 ++ wire.getD (a + 1) 0 ++ wire.getD (a + 2) 0 ++ wire.getD (a + 3) 0 := by
  have hone : BitVec.ofNat 8 (fromBe (slice a (a + 1) wire)) = wire.getD a 0 := by
    have hs : slice a (a + 1) wire = [wire.getD a 0] := by
      rw [slice, Nat.add_sub_cancel_left, List.take_one, List.head?_drop, List.getElem?_eq_getElem (by omega),
        List.getD_eq_getElem _ _ (by omega)]
      rfl
    simp [hs, fromBe]
  refine (ofNat_fromBe_slice_succ (n := 3) (by omega) 24).trans (congrArg (· ++ _) ?_)
  refine (ofNat_fromBe_slice_succ (n := 2) (by omega) 16).trans (congrArg (· ++ _) ?_)
  exact (ofNat_fromBe_slice_succ (n := 1) (by omega) 8).trans (congrArg (· ++ _) hone)

/-- R95: a field of eight bytes. -/
theorem ofNat_fromBe_slice_eight {wire : List Byte} {a : Nat} (h : a + 7 < wire.length) :
    BitVec.ofNat 64 (fromBe (slice a (a + 8) wire)) =
      wire.getD a 0 ++ wire.getD (a + 1) 0 ++ wire.getD (a + 2) 0 ++ wire.getD (a + 3) 0 ++ wire.getD (a + 4) 0 ++
        wire.getD (a + 5) 0 ++ wire.getD (a + 6) 0 ++ wire.getD (a + 7) 0 := by
  refine (ofNat_fromBe_slice_succ (n := 7) (by omega) 56).trans (congrArg (· ++ _) ?_)
  refine (ofNat_fromBe_slice_succ (n := 6) (by omega) 48).trans (congrArg (· ++ _) ?_)
  refine (ofNat_fromBe_slice_succ (n := 5) (by omega) 40).trans (congrArg (· ++ _) ?_)
  exact (ofNat_fromBe_slice_succ (n := 4) (by omega) 32).trans (congrArg (· ++ _) (ofNat_fromBe_slice_four (by omega)))

/-- R152: the parse of a datagram of legal length. -/
theorem parseFrame_of_length {wire : List Byte} (hmin : 14 ≤ wire.length) (hmax : wire.length ≤ 1414) :
    parseFrame wire = .ok
      { seq := wire.getD 0 0 ++ wire.getD 1 0 ++ wire.getD 2 0 ++ wire.getD 3 0
        ack := wire.getD 4 0
        fin := wire.getD 5 0
        cks := wire.getD 6 0 ++ wire.getD 7 0 ++ wire.getD 8 0 ++ wire.getD 9 0 ++
          wire.getD 10 0 ++ wire.getD 11 0 ++ wire.getD 12 0 ++ wire.getD 13 0
        payload := wire.drop 14 } := by
  have hseq := ofNat_fromBe_slice_four (wire := wire) (a := 0) (by omega)
  have hcks := ofNat_fromBe_slice_eight (wire := wire) (a := 6) (by omega)
  rw [parseFrame, if_neg (Nat.not_lt.2 hmin), if_neg (Nat.not_lt.2 hmax)]
  exact congrArg Except.ok ((Frame.mk.injEq ..).mpr ⟨hseq, rfl, rfl, hcks, rfl⟩)

/-- Settles O13: the parse by offsets, and its two length errors. -/
theorem decodeParsesFields : Obligations.DecodeParsesFields := by
  unfold Obligations.DecodeParsesFields
  refine ⟨fun _ _ => rfl, fun who wire s h hmin hmax => ?_, fun who wire s h hlen => ?_, fun who wire s h hlen => ?_, by decide +kernel⟩
  · rw [exec, execCodecDecode, unlessHalted_eq h, parseFrame_of_length hmin hmax]
  · rw [exec, execCodecDecode, unlessHalted_eq h, parseFrame, if_pos hlen]
    rfl
  · rw [exec, execCodecDecode, unlessHalted_eq h, parseFrame, if_neg (by simp only [Config.headerSize]; omega), if_pos hlen]
    rfl

/-! ### ISVALID (R154) -/

/-- R154: validity compares numbers of 64 bits. -/
theorem frameValid_eq_decide (F : Frame) : frameValid F = decide (F.cks.toNat = (crc32 (coveredBytes F)).toNat) := by
  have hc : ((crc32 (coveredBytes F)).setWidth 64).toNat = (crc32 (coveredBytes F)).toNat := BitVec.toNat_setWidth_of_le (by decide)
  rw [Bool.eq_iff_iff, decide_eq_true_iff, ← hc]
  exact beq_iff_eq.trans BitVec.toNat_inj.symm

/-- R154, R155: a valid frame's checksum field has a zero upper half. -/
theorem extractLsb'_cks_of_frameValid {F : Frame} (h : frameValid F = true) : F.cks.extractLsb' 32 32 = 0 := by
  have hc : F.cks = (crc32 (coveredBytes F)).setWidth 64 := beq_iff_eq.1 h
  have hlt := (crc32 (coveredBytes F)).isLt
  rw [hc]
  apply BitVec.eq_of_toNat_eq
  rw [BitVec.extractLsb'_toNat, BitVec.toNat_setWidth_of_le (by decide), Nat.shiftRight_eq_div_pow, Nat.div_eq_of_lt hlt]
  rfl

theorem frameWellFormed_eq_true {F : Frame} : frameWellFormed F = true ↔ F.seq.toNat ≤ 1 ∧ F.ack.toNat ≤ 1 ∧ F.fin.toNat ≤ 1 := by
  simp [frameWellFormed, and_assoc]

/-- A field of at most 1 is one of two values. -/
theorem eq_zextBit_of_toNat_le_one {w : Nat} {x : BitVec w} (h : x.toNat ≤ 1) : x = zextBit w (x.getLsbD 0) := by
  have hx : (x.getLsbD 0).toNat = x.toNat := by
    rw [BitVec.getLsbD, Nat.testBit_zero]
    rcases Nat.le_one_iff_eq_zero_or_eq_one.1 h with h | h <;> simp [h]
  rw [zextBit, hx, BitVec.ofNat_toNat, BitVec.setWidth_eq]

/-- R154, R155: the header of a well-formed frame is the canonical one. -/
theorem frameHeader_of_wellFormed {F : Frame} (h : frameWellFormed F = true) :
    frameHeader F = prefixBytes (F.seq.getLsbD 0) (F.ack.getLsbD 0) (F.fin.getLsbD 0) := by
  obtain ⟨hs, ha, hf⟩ := frameWellFormed_eq_true.1 h
  rw [← headerBytes_zextBit, ← eq_zextBit_of_toNat_le_one hs, ← eq_zextBit_of_toNat_le_one ha, ← eq_zextBit_of_toNat_le_one hf]
  rfl

theorem frameHeader_eq_append (F : Frame) : frameHeader F = be 4 F.seq.toNat ++ [F.ack] ++ [F.fin] := by
  simp [frameHeader, headerBytes]

/-- Settles O15: the comparison of the checksum field as numbers. -/
theorem isValidComparesAllBits : Obligations.IsValidComparesAllBits := by
  unfold Obligations.IsValidComparesAllBits
  refine ⟨fun who F h => ?_, fun who F s h => ?_, fun F hne => ?_, fun F h => ?_, by decide +kernel, by decide +kernel, by decide +kernel⟩
  · rw [decode_isValid, frameOperand_frameWire h]
    rfl
  · rw [← frameHeader_eq_append]
    have hv : validWith hardware F = _ := frameValid_eq_decide F
    rw [exec, execCodecIsValid, isValidWith, unlessHalted_eq h, hv, crcAfter_hardware_eq_xor]
    rfl
  · rw [Bool.eq_false_iff]
    exact fun h => hne (extractLsb'_cks_of_frameValid h)
  · rw [← frameHeader_eq_append]
    exact frameHeader_of_wellFormed h

/-! ### ISWELLFORMED (R155) -/

/-- R194, R211: a frame that is not well-formed fails the acceptance. -/
theorem acceptWith_of_not_wellFormed {k : Config.Parameters} {wire : List Byte} {F : Frame} (hp : parseFrame wire = .ok F)
    (h : frameWellFormed F = false) : acceptWith k wire = none := by
  simp [acceptWith, hp, h]

/-- Settles O16: the three ranges. -/
theorem isWellFormedTestsRanges : Obligations.IsWellFormedTestsRanges := by
  unfold Obligations.IsWellFormedTestsRanges
  refine ⟨fun who F h => ?_, fun who F s h => ?_, fun wire F => acceptWith_of_not_wellFormed, by decide +kernel, by decide +kernel⟩
  · rw [decode_isWellFormed, frameOperand_frameWire h]
    rfl
  · have hw : frameWellFormed F = decide (F.seq.toNat ≤ 1 ∧ F.ack.toNat ≤ 1 ∧ F.fin.toNat ≤ 1) := by
      rw [Bool.eq_iff_iff, decide_eq_true_iff, frameWellFormed_eq_true]
    rw [exec, execCodecIsWellFormed, unlessHalted_eq h, hw]

end Sys2Proof.Machine

namespace Sys2Proof.Machine

open Sys2Proof.Safety

/-! ### The timer (R170 to R173) -/

/-- Log 3: a four-byte operand survives its layout. -/
theorem wordOperand_be (v : BitVec 32) (more : List Byte) : wordOperand (be 4 v.toNat ++ more) = .ok (v, more) := by
  have hlen : (be 4 v.toNat).length = 4 := be_length 4 _
  have hv : fromBe (be 4 v.toNat) = v.toNat := fromBe_be 4 _ v.isLt
  rw [wordOperand, if_neg (by simp [hlen]), slice, List.drop_zero, List.take_left' hlen, List.drop_left' hlen, hv]
  simp

/-- R107, log 3: the operand of TMR.START. -/
theorem decode_tmrStart (d : BitVec 32) : decode (.op .sender (0x30 :: be 4 d.toNat)) = .ok (.tmrStart d) := by
  have hw := wordOperand_be d []
  rw [List.append_nil] at hw
  have he : decode (.op .sender (0x30 :: be 4 d.toNat)) =
      onlyOn .sender .sender (match wordOperand (be 4 d.toNat) with
        | .error e => .error e
        | .ok (d, more) => noOperands more (.tmrStart d)) := rfl
  rw [he, hw]
  rfl

/-- R173: the expiry is refused where it is not due. -/
theorem exec_tmrExpire_of_not_due {s : State} (hh : s.sender.common.halted = false) (he : expiryEnabled s = false) :
    exec .tmrExpire s = .refused (.notEnabled .tmrExpire) := by
  rw [exec, execTmrExpire, expireWith, unlessHalted_eq (who := .sender) hh, he]
  rfl

/-- Settles O27: with another delay than 0 the count is not 0. -/
theorem tmrStartSupersedes : Obligations.TmrStartSupersedes := by
  unfold Obligations.TmrStartSupersedes
  refine fun d s => ⟨decode_tmrStart d, fun hi hh => ⟨_, whenStarted_eq hi hh _, rfl, fun hd => ?_, fun hd => ?_⟩⟩
  · exact exec_tmrExpire_of_not_due hh (by
      show (_ && decide (d = 0)) = false
      rw [decide_eq_false hd, Bool.and_false])
  · simp [expiryEnabled, hd, hh]

/-- Settles O28: a timer that is not armed is not due. -/
theorem tmrCancelPreventsExpiry : Obligations.TmrCancelPreventsExpiry := by
  unfold Obligations.TmrCancelPreventsExpiry
  refine fun s => ⟨rfl, fun hi hh => ⟨_, whenStarted_eq hi hh _, rfl, ?_, ?_⟩⟩
  · exact exec_tmrExpire_of_not_due hh (by simp [expiryEnabled])
  · exact whenStarted_eq (s := cancelTimer s) hi hh _

/-- R172: a tick writes the count alone. -/
theorem tickTimer_eq (n : Sender) : tickTimer n = { n with tmrCount := (tickTimer n).tmrCount } := by
  unfold tickTimer
  split <;> rfl

/-- R172: one less while the timer is armed and the count is not 0. -/
theorem toNat_tmrCount_tickTimer (n : Sender) :
    (tickTimer n).tmrCount.toNat =
      if n.tmrArmed = true ∧ 0 < n.tmrCount.toNat then n.tmrCount.toNat - 1 else n.tmrCount.toNat := by
  have hguard : (n.tmrArmed && decide (n.tmrCount ≠ 0)) = true ↔ n.tmrArmed = true ∧ 0 < n.tmrCount.toNat := by
    rw [Bool.and_eq_true, decide_eq_true_iff, Nat.pos_iff_ne_zero]
    exact and_congr_right fun _ => not_congr BitVec.toNat_inj.symm
  unfold tickTimer
  by_cases h : n.tmrArmed = true ∧ 0 < n.tmrCount.toNat
  · rw [if_pos (hguard.2 h), if_pos h, BitVec.toNat_sub_of_le (x := n.tmrCount) (y := 1) (BitVec.le_def.2 h.2)]
    rfl
  · rw [if_neg (mt hguard.1 h), if_neg h]

/-- Settles O29: what a tick writes, and the count as a number. -/
theorem tmrTickCountsDown : Obligations.TmrTickCountsDown := by
  unfold Obligations.TmrTickCountsDown
  refine fun s => ⟨rfl, fun hh => ⟨(tickTimer s.sender).tmrCount, ?_, toNat_tmrCount_tickTimer s.sender⟩⟩
  rw [← tickTimer_eq]
  exact unlessHalted_eq (who := .sender) hh _

/-! ### Reset and start-up (R43, R280 to R283) -/

/-- Settles O41: the registers after a reset, field by field. -/
theorem resetRestoresOneInstance : Obligations.ResetRestoresOneInstance := by
  unfold Obligations.ResetRestoresOneInstance
  refine ⟨fun s => ⟨Sender.reset s.sender.common.addr (Config.freeAddr s.free), rfl, ?_⟩,
    fun s => ⟨Receiver.reset s.receiver.common.addr (Config.freeAddr s.free) s.receiver.rxBufMax, rfl, ?_⟩⟩
  · simp [Sender.reset, Common.reset, Config.defaultTimeoutMs, Memory.read]
  · simp [Receiver.reset, Common.reset, Config.defaultRxDedup, Memory.read]

/-- Settles O42: the power-on state, field by field. -/
theorem powerOnStateAsListed : Obligations.PowerOnStateAsListed := by
  unfold Obligations.PowerOnStateAsListed
  simp [State.reset, Sender.reset, Receiver.reset, Common.reset, Config.defaultTimeoutMs, Config.defaultRxDedup, txCode]

/-- R283: CFG.INIT where its guard holds. -/
theorem execCfgInit_of_enabled {who : Role} {s : State} (h : initEnabled (commonOf who s) = true) (ok : Bool) :
    execCfgInit who ok s = if ok then .next (mapCommon who (initCommon true) s)
      else .next (emit (.error who .transportError) (mapCommon who (initCommon false) s)) :=
  if_pos h

/-- Settles O43: the guard of CFG.INIT, and what it writes where nothing is halted. -/
theorem cfgInitFreezesOrHalts : Obligations.CfgInitFreezesOrHalts := by
  unfold Obligations.CfgInitFreezesOrHalts
  refine fun who s => ⟨fun hd ha hi hh => ?_, fun h ok => if_neg ?_⟩
  · have he : initEnabled (commonOf who s) = true := by simp [initEnabled, hd, ha, hi, hh]
    constructor
    · refine (execCfgInit_of_enabled he true).trans (congrArg Host.Outcome.next (mapCommon_congr ?_))
      simp [initCommon, hh]
    · refine (execCfgInit_of_enabled he false).trans (congrArg (fun t => Host.Outcome.next (emit _ t)) (mapCommon_congr ?_))
      simp [initCommon]
  · rcases h with h | h | h | h <;> simp [initEnabled, h]

/-- R36, R223: a step that performs a write to the configuration record. -/
theorem step_of_configure {s : State} {w : ConfigWrite} {rest : List Event} (hu : s.unitCall = none)
    (ha : s.agenda = .configure w :: rest) :
    step s = if configEnabled w s then .next (applyConfig w { s with agenda := rest }) else .refused (.notEnabled .configure) := by
  rw [step_of_agenda_cons hu ha]
  cases w with
  | timeoutMs | rxDedup => rfl
  | portData who | portAck who => cases who <;> rfl

/-- Settles O44: each write's guard is that the machine it writes has not performed CFG.INIT. -/
theorem configurationWrites : Obligations.ConfigurationWrites := by
  unfold Obligations.ConfigurationWrites
  refine fun s who p v d rest hu => ⟨fun hi => ⟨fun ha => ?_, fun ha => ?_⟩, fun hi ha => ?_, fun ha => ?_, fun ha => ?_⟩
  · rw [step_of_configure hu ha, if_pos (by simp [configEnabled, hi])]
    rfl
  · rw [step_of_configure hu ha, if_pos (by simp [configEnabled, hi])]
    rfl
  · rcases ha with ha | ha <;> rw [step_of_configure hu ha, if_neg (by simp [configEnabled, hi])]
  · rw [step_of_configure hu ha]
    cases hi : s.sender.common.initDone <;> simp [configEnabled, applyConfig, mapSender, hi]
  · rw [step_of_configure hu ha]
    cases hi : s.receiver.common.initDone <;> simp [configEnabled, applyConfig, mapReceiver, hi]

end Sys2Proof.Machine

namespace Sys2Proof.Safety

open Sys2Proof.Machine

/-! ### The spaces over a step (R60, log 14) -/

/-- The canonical form is one of the registers. -/
theorem memoriesCanonical_blockAs {s u : State} (h : MemoriesCanonical s) (hu : BlockAs s u) : MemoriesCanonical u := by
  rw [memoriesCanonical_iff, hu.sender, hu.receiver]
  exact memoriesCanonical_iff.1 h

/-- R36: a write to the configuration record reaches no space. -/
theorem memoriesCanonical_applyConfig {s : State} (h : MemoriesCanonical s) (w : ConfigWrite) :
    MemoriesCanonical (applyConfig w s) := by
  cases w with
  | timeoutMs | rxDedup => exact { h with }
  | portData who | portAck who => cases who <;> exact { h with }

/-- Settles O50: of all that a step can do, only the moves of sender and receiver write a space, and each keeps its form. -/
theorem stepKeepsMemoriesCanonical : Obligations.StepKeepsMemoriesCanonical := by
  unfold Obligations.StepKeepsMemoriesCanonical
  intro s t h hstep
  cases step_cases hstep with
  | instruction i u hu hi _ =>
    obtain ⟨hms, hmr⟩ := (acts_of_exec hi).moves
    obtain ⟨hcs, hcr⟩ := memoriesCanonical_iff.1 (memoriesCanonical_blockAs h hu)
    exact memoriesCanonical_iff.2 ⟨hcs.of_move hms, hcr.of_move hmr⟩
  | configure w u hu _ ht =>
    subst ht
    exact memoriesCanonical_applyConfig (memoriesCanonical_blockAs h hu) w
  | environment hu => exact memoriesCanonical_blockAs h hu

end Sys2Proof.Safety

namespace Sys2Proof.Machine

/-! ### The buffer of an active transfer (R62, R25) -/

/-- R36: a write to the configuration record reaches no register of the transfer. -/
theorem applyConfig_transfer (w : ConfigWrite) (s : State) :
    (applyConfig w s).sender.txBuf = s.sender.txBuf ∧ (applyConfig w s).sender.txLen = s.sender.txLen ∧
      (applyConfig w s).sender.txDest = s.sender.txDest := by
  cases w with
  | timeoutMs | rxDedup => exact ⟨rfl, rfl, rfl⟩
  | portData who | portAck who => cases who <;> exact ⟨rfl, rfl, rfl⟩

/-- R62: only RESET, which ends the transfer, and TX.LOAD, which finds none, write what a transfer reads. -/
theorem SenderMove.keeps_transfer {i : Instr} {n n' : Sender} (hm : SenderMove i n n') (h : n.txActive = true)
    (h' : n'.txActive = true) : n'.txBuf = n.txBuf ∧ n'.txLen = n.txLen ∧ n'.txDest = n.txDest := by
  cases hm with
  | reset => cases h'
  | load _ _ _ _ ha => simp [h] at ha
  | tick =>
    unfold tickTimer
    split <;> exact ⟨rfl, rfl, rfl⟩
  | idle | init | scratch | timer | lapse | chunk | again | ack => exact ⟨rfl, rfl, rfl⟩

/-- Settles O56: of all that a step can do, only a move of the sender can reach what the transfer reads. -/
theorem transferBufferUnchangedWhileActive : Obligations.TransferBufferUnchangedWhileActive := by
  unfold Obligations.TransferBufferUnchangedWhileActive
  intro s t ha hstep ha'
  have key : t.sender.txBuf = s.sender.txBuf ∧ t.sender.txLen = s.sender.txLen ∧ t.sender.txDest = s.sender.txDest := by
    cases step_cases hstep with
    | instruction i u hu hi _ =>
      have hm := (acts_of_exec hi).moves.1
      rw [hu.sender] at hm
      exact hm.keeps_transfer ha ha'
    | configure w u hu _ ht =>
      rw [ht, ← hu.sender]
      exact applyConfig_transfer w u
    | environment hu => simp [hu.sender]
  obtain ⟨hbuf, hlen, hdest⟩ := key
  exact ⟨fun a => by rw [hbuf], hlen, hdest⟩

end Sys2Proof.Machine

namespace Sys2Proof.Machine

/-! ### The instruction a step performs (R70, R222, R223) -/

/-- R223, R231: an arrival whose datagram is in flight takes it up, where the inbound socket works. -/
theorem startBy_of_arrival {ex : Instr → State → Outcome} {k : Config.Parameters} {r : Request} {i : Instr} {a : Arrival} {s : State}
    (ha : arrivalOf r = some a) (hd : decode r = .ok i) (hp : (ownEndpoint a.dest s).port.isSome = true)
    (hm : arriving a s ∈ s.inFlight) (hup : (sideOf a.dest s).inboundUp = true) :
    startBy ex k r s = ex i { s with inFlight := s.inFlight.erase (arriving a s) } := by
  simp [startBy, ha, arriveBy, inTransit, hp, hm, hup, performBy_ok hd]

theorem step_scheduleFirst (r : Request) (s : State) :
    step (scheduleFirst r s) = startBy exec hardware r { s with unitCall := none } := rfl

/-- Log 4: a request that is placed is what the next step performs. -/
theorem step_placeRequest {r : Request} {i : Instr} {s : State} (hd : decode r = .ok i)
    (hready : ∀ a, arrivalOf r = some a → (ownEndpoint a.dest s).port.isSome = true ∧ (sideOf a.dest s).inboundUp = true) :
    step (placeRequest r s) = exec i { s with unitCall := none } := by
  unfold placeRequest
  split
  · rename_i a ha
    obtain ⟨hp, hup⟩ := hready a ha
    rw [step_scheduleFirst]
    refine (startBy_of_arrival ha hd ?_ List.mem_cons_self ?_).trans ?_
    · exact hp
    · exact hup
    · exact congrArg (fun flight => exec i { s with inFlight := flight, unitCall := none })
        (List.erase_cons_head (arriving a s) s.inFlight)
  · rename_i ha
    split
    · exact (step_of_unitCall rfl).trans (performBy_ok hd)
    · rename_i hn
      rw [step_scheduleFirst]
      exact startBy_ok ha hd (by simpa [neverByItself_ok hd] using hn)

/-- R223: what receives a datagram has its port, and its inbound socket works. -/
theorem readyToReceive_receives (dest : Role) (s : State) :
    (ownEndpoint dest (readyToReceive dest s)).port.isSome = true ∧ (sideOf dest (readyToReceive dest s)).inboundUp = true := by
  cases dest <;> exact ⟨rfl, rfl⟩

/-- R223: the guard of an arrival is that of the machine it reaches. -/
theorem meetGuard_of_arrivalOfInstr {i : Instr} {a : Arrival} (h : arrivalOfInstr i = some a) (s : State) :
    meetGuard i s = readyToReceive a.dest s := by
  cases i with
  | data0 | data0f | ack0 | ack0f | data1 | data1f | ack1 | ack1f | txRecv | rxRecv => cases h; rfl
  | _ => cases h

/-- Log 4: a table row's word that decodes stands for a request that decodes to the same instruction. -/
theorem decodeTableWord_eq_some {nbits w : Nat} {i : Instr} (h : decodeTableWord nbits w = some i) :
    ∃ r, tableRequest nbits w = some r ∧ decode r = .ok i := by
  unfold decodeTableWord at h
  split at h
  · cases h
  · rename_i r hr
    cases hd : decode r with
    | error why => simp [hd, Except.toOption] at h
    | ok j =>
      obtain rfl : j = i := by simpa [hd, Except.toOption] using h
      exact ⟨r, hr, hd⟩

theorem step_withFetchWord {nbits w : Nat} {i : Instr} (h : decodeTableWord nbits w = some i) (s : State) :
    step (s.withFetchWord nbits w) = exec i { meetGuard i s with unitCall := none } := by
  obtain ⟨r, hr, hd⟩ := decodeTableWord_eq_some h
  have hplace : s.withFetchWord nbits w = placeRequest r (meetGuard i s) := by
    simp [State.withFetchWord, placeTableWord, hr, hd]
  rw [hplace]
  refine step_placeRequest hd fun a ha => ?_
  rw [meetGuard_of_arrivalOfInstr ((arrivalOf_decoded hd).symm.trans ha)]
  exact readyToReceive_receives a.dest s

/-- Settles O51: each of the four ways to start an instruction comes to `exec` of what is decoded. -/
theorem stepRunsDecodedInstruction : Obligations.StepRunsDecodedInstruction := by
  unfold Obligations.StepRunsDecodedInstruction
  refine ⟨?_, ?_, ?_, ?_⟩
  · intro s r i rest hu hr hd hs ha
    rw [step_of_agenda_cons hu hr]
    exact startBy_ok ((arrivalOf_decoded hd).trans ha) hd hs
  · intro s r i a rest p hu hr hd ha hp hm hup
    rw [step_of_agenda_cons hu hr]
    exact startBy_of_arrival ((arrivalOf_decoded hd).trans ha) hd (Option.isSome_of_eq_some hp) hm hup
  · intro s r i hu hd
    rw [step_of_unitCall hu, performBy_ok hd]
  · intro s nbits w i h
    exact step_withFetchWord h s

end Sys2Proof.Machine

namespace Sys2Proof.Machine

open Sys2Proof.Safety

/-! ### The frame kinds (R91, R99) -/

/-- R99: the wire bytes of a frame kind. -/
theorem encode_frameKind (q a f : Bool) (dest : Role) (src : Addr) (cks : BitVec 64) (payload : List Byte) :
    encode (frameKind q a f dest src cks payload) =
      .datagram dest src (frameWire ⟨zextBit 32 q, zextBit 8 a, zextBit 8 f, cks, payload⟩) := by
  cases q <;> cases a <;> cases f <;> rfl

theorem wellFormed_frameKind (q a f : Bool) (dest : Role) (src : Addr) (cks : BitVec 64) (payload : List Byte) :
    (frameKind q a f dest src cks payload).wellFormed = payloadFits payload := by
  cases q <;> cases a <;> cases f <;> rfl

/-- R91, R99: three fields of at most 1 select the frame kind. -/
theorem decodeFrame_of_fields {wire : List Byte} {F : Frame} (hp : parseFrame wire = .ok F) {q a f : Bool}
    (hq : F.seq = zextBit 32 q) (ha : F.ack = zextBit 8 a) (hf : F.fin = zextBit 8 f) (dest : Role) (src : Addr) :
    decodeFrame dest src wire = .ok (frameKind q a f dest src F.cks F.payload) := by
  have hpre := fields_of_framePrefix hp
  rw [hq, ha, hf] at hpre
  rw [decodeFrame, hp]
  cases q <;> cases a <;> cases f <;> simp [hpre, zextBit, frameKind]

/-- R101 (c): a field above 1 selects none. -/
theorem decodeFrame_of_not_wellFormed {wire : List Byte} {F : Frame} (hp : parseFrame wire = .ok F)
    (h : frameWellFormed F = false) (dest : Role) (src : Addr) : decodeFrame dest src wire = .error .illFormed := by
  have hpre := fields_of_framePrefix hp
  have hfields : ¬(F.seq.toNat ≤ 1 ∧ F.ack.toNat ≤ 1 ∧ F.fin.toNat ≤ 1) := by
    rw [← frameWellFormed_eq_true, h]
    exact Bool.false_ne_true
  have ha := F.ack.isLt
  have hf := F.fin.isLt
  simp only [decodeFrame, hp]
  split
  case h_9 => rfl
  all_goals omega

/-- R91, R99, R101: what a datagram of legal length decodes to. -/
theorem decodeFrame_of_parseFrame {wire : List Byte} {F : Frame} (hp : parseFrame wire = .ok F) (dest : Role) (src : Addr) :
    decodeFrame dest src wire =
      if frameWellFormed F
      then .ok (frameKind (F.seq.getLsbD 0) (F.ack.getLsbD 0) (F.fin.getLsbD 0) dest src F.cks F.payload)
      else .error .illFormed := by
  split
  · rename_i hw
    obtain ⟨hq, ha, hf⟩ := frameWellFormed_eq_true.1 hw
    exact decodeFrame_of_fields hp (eq_zextBit_of_toNat_le_one hq) (eq_zextBit_of_toNat_le_one ha)
      (eq_zextBit_of_toNat_le_one hf) dest src
  · rename_i hw
    exact decodeFrame_of_not_wellFormed hp (by simpa using hw) dest src

/-- The bit of a field of at most 1 says whether it is 1. -/
theorem getLsbD_zero_of_toNat_le_one {w : Nat} {x : BitVec (w + 1)} (h : x.toNat ≤ 1) : x.getLsbD 0 = decide (x = 1) := by
  have hx := eq_zextBit_of_toNat_le_one h
  cases hb : x.getLsbD 0 <;> rw [hb] at hx <;> simp [hx, zextBit]

/-- Settles O4: the parse of a datagram of legal length, and its three fields. -/
theorem frameKindsByFields : Obligations.FrameKindsByFields := by
  unfold Obligations.FrameKindsByFields
  intro dest src wire hmin hmax
  obtain ⟨F, hp⟩ : ∃ F, parseFrame wire = .ok F := ⟨_, parseFrame_of_length hmin hmax⟩
  refine ⟨F, hp, (decodeFrame_of_parseFrame hp dest src).trans ?_⟩
  by_cases hw : F.seq.toNat ≤ 1 ∧ F.ack.toNat ≤ 1 ∧ F.fin.toNat ≤ 1
  · rw [if_pos hw, if_pos (frameWellFormed_eq_true.2 hw)]
    obtain ⟨hq, ha, hf⟩ := hw
    rw [getLsbD_zero_of_toNat_le_one hq, getLsbD_zero_of_toNat_le_one ha, getLsbD_zero_of_toNat_le_one hf]
  · rw [if_neg hw, if_neg (mt frameWellFormed_eq_true.1 hw)]

/-- Settles O3: each word is decoded as it is printed. -/
theorem sampleWordsDecode : Obligations.SampleWordsDecode := by
  unfold Obligations.SampleWordsDecode
  decide +kernel

/-! ### Decoding what was encoded (R99, R107, R108) -/

theorem decode_encode_frameKind (q a f : Bool) (dest : Role) (src : Addr) (cks : BitVec 64) {payload : List Byte}
    (h : payload.length ≤ Config.packetSize) :
    decode (encode (frameKind q a f dest src cks payload)) = .ok (frameKind q a f dest src cks payload) := by
  rw [encode_frameKind]
  exact decodeFrame_of_fields (parseFrame_frameWire _ h) rfl rfl rfl dest src

/-- Log 3: an address in front of a byte sequence. -/
theorem map_wordOperand_be {α : Type} (v : BitVec 32) (more : List Byte) (g : BitVec 32 × List Byte → α) :
    (wordOperand (be 4 v.toNat ++ more)).map g = .ok (g (v, more)) := by
  rw [wordOperand_be, Except.map]

theorem payloadFits_eq_true {payload : List Byte} : payloadFits payload = true ↔ payload.length ≤ Config.packetSize :=
  decide_eq_true_iff

/-- Settles O1: the frame kinds share one lemma, and each operand layout has its own. -/
theorem decodeEncodeRoundTrip : Obligations.DecodeEncodeRoundTrip := by
  unfold Obligations.DecodeEncodeRoundTrip
  intro i h
  cases i with
  | data0 => exact decode_encode_frameKind false false false _ _ _ (payloadFits_eq_true.1 h)
  | data0f => exact decode_encode_frameKind false false true _ _ _ (payloadFits_eq_true.1 h)
  | ack0 => exact decode_encode_frameKind false true false _ _ _ (payloadFits_eq_true.1 h)
  | ack0f => exact decode_encode_frameKind false true true _ _ _ (payloadFits_eq_true.1 h)
  | data1 => exact decode_encode_frameKind true false false _ _ _ (payloadFits_eq_true.1 h)
  | data1f => exact decode_encode_frameKind true false true _ _ _ (payloadFits_eq_true.1 h)
  | ack1 => exact decode_encode_frameKind true true false _ _ _ (payloadFits_eq_true.1 h)
  | ack1f => exact decode_encode_frameKind true true true _ _ _ (payloadFits_eq_true.1 h)
  | cfgInit who ok => cases ok <;> rfl
  | codecEncode who q a f payload => exact encodeOperands_bitByte who q a f payload
  | codecIsValid who F =>
    rw [encode, decode_isValid, frameOperand_frameWire (payloadFits_eq_true.1 h)]
    rfl
  | codecIsWellFormed who F =>
    rw [encode, decode_isWellFormed, frameOperand_frameWire (payloadFits_eq_true.1 h)]
    rfl
  | tmrStart d => exact decode_tmrStart d
  | txLoad buf dest => exact map_wordOperand_be dest buf fun x => Instr.txLoad x.2 x.1
  | txRecv wire src => exact map_wordOperand_be src wire fun x => Instr.txRecv x.2 x.1
  | rxRecv wire src => exact map_wordOperand_be src wire fun x => Instr.rxRecv x.2 x.1
  | reset | crcInit | crcUpdate | crcRead | crcCompute | codecDecode | tmrCancel | tmrTick | tmrExpire | txSendPacket | txTimeout
  | txPacketReceived => rfl

/-! ### Encoding what was decoded (R99, R102, R108) -/

/-- R91, R99: the frame kind a datagram decodes to has its bytes. -/
theorem encode_of_decodeFrame {dest : Role} {src : Addr} {wire : List Byte} {i : Instr} (h : decodeFrame dest src wire = .ok i) :
    i.wellFormed = true ∧ encode i = .datagram dest src wire := by
  cases hp : parseFrame wire with
  | error why => simp [decodeFrame, hp] at h
  | ok F =>
    obtain ⟨hwire, hfits⟩ := frameWire_of_parseFrame hp
    rw [decodeFrame_of_parseFrame hp] at h
    split at h
    · rename_i hw
      obtain ⟨hq, ha, hf⟩ := frameWellFormed_eq_true.1 hw
      cases h
      refine ⟨(wellFormed_frameKind ..).trans (payloadFits_eq_true.2 hfits), ?_⟩
      rw [encode_frameKind, ← eq_zextBit_of_toNat_le_one hq, ← eq_zextBit_of_toNat_le_one ha,
        ← eq_zextBit_of_toNat_le_one hf, hwire]
    · cases h

theorem noOperands_eq_ok {args : List Byte} {i j : Instr} (h : noOperands args i = .ok j) : args = [] ∧ j = i := by
  cases args with
  | nil => cases h; exact ⟨rfl, rfl⟩
  | cons b bs => cases h

theorem onlyOn_eq_ok {has who : Role} {r : Except DecodeError Instr} {i : Instr} (h : onlyOn has who r = .ok i) :
    who = has ∧ r = .ok i := by
  unfold onlyOn at h
  split at h
  · exact ⟨.symm ‹_›, h⟩
  · cases h

theorem exceptMap_eq_ok {ε α β : Type} {g : α → β} {x : Except ε α} {y : β} (h : x.map g = .ok y) :
    ∃ v, x = .ok v ∧ y = g v := by
  cases x with
  | error => cases h
  | ok v => cases h; exact ⟨v, rfl, rfl⟩

theorem bitOperand_eq_ok {b : Byte} {v : Bool} (h : bitOperand b = .ok v) : b = bitByte v := by
  unfold bitOperand at h
  split at h
  · cases h; assumption
  · split at h
    · cases h; assumption
    · cases h

theorem wordOperand_eq_ok {args : List Byte} {x : BitVec 32 × List Byte} (h : wordOperand args = .ok x) :
    args = be 4 x.1.toNat ++ x.2 := by
  unfold wordOperand at h
  split at h
  · cases h
  rename_i hlen
  cases h
  have hl : (args.take 4).length = 4 := by rw [List.length_take]; omega
  have hlt := fromBe_lt (args.take 4)
  have hbe := be_fromBe (args.take 4)
  rw [hl] at hlt hbe
  simp only [slice, List.drop_zero, Nat.sub_zero]
  rw [BitVec.toNat_ofNat, Nat.mod_eq_of_lt (by simpa using hlt), hbe, List.take_append_drop]

theorem frameOperand_eq_ok {args : List Byte} {F : Frame} (h : frameOperand args = .ok F) :
    frameWire F = args ∧ F.payload.length ≤ Config.packetSize := by
  cases hp : parseFrame args with
  | error why => simp [frameOperand, hp] at h
  | ok G =>
    simp only [frameOperand, hp] at h
    cases h
    exact frameWire_of_parseFrame hp

theorem encodeOperands_eq_ok {who : Role} {args : List Byte} {i : Instr} (h : encodeOperands who args = .ok i) :
    ∃ q a f payload, args = bitByte q :: bitByte a :: bitByte f :: payload ∧ i = .codecEncode who q a f payload := by
  unfold encodeOperands at h
  split at h
  · split at h
    · rename_i hq ha hf
      cases h
      rw [bitOperand_eq_ok hq, bitOperand_eq_ok ha, bitOperand_eq_ok hf]
      exact ⟨_, _, _, _, rfl, rfl⟩
    · cases h
  · cases h

theorem onlyOn_noOperands_eq_ok {has who : Role} {args : List Byte} {i j : Instr} (h : onlyOn has who (noOperands args i) = .ok j) :
    who = has ∧ args = [] ∧ j = i := by
  obtain ⟨hw, hn⟩ := onlyOn_eq_ok h
  exact ⟨hw, noOperands_eq_ok hn⟩

/-- Log 3: an address in front of a byte sequence. -/
theorem onlyOn_map_wordOperand_eq_ok {has who : Role} {args : List Byte} {g : BitVec 32 × List Byte → Instr} {i : Instr}
    (h : onlyOn has who ((wordOperand args).map g) = .ok i) :
    who = has ∧ ∃ v more, args = be 4 v.toNat ++ more ∧ i = g (v, more) := by
  obtain ⟨hw, hm⟩ := onlyOn_eq_ok h
  obtain ⟨⟨v, more⟩, ho, hi⟩ := exceptMap_eq_ok hm
  exact ⟨hw, v, more, wordOperand_eq_ok ho, hi⟩

/-- R108: the instruction a label names with its operand bytes is encoded as these. -/
theorem encode_of_decodeLabel {who : Role} {label : Byte} {args : List Byte} {i : Instr} (h : decodeLabel who label args = .ok i) :
    i.wellFormed = true ∧ encode i = .op who (label :: args) := by
  have hlabel : label = BitVec.ofNat 8 label.toNat := by simp
  rw [hlabel]
  unfold decodeLabel at h
  generalize label.toNat = n at h ⊢
  split at h
  case h_1 | h_3 | h_5 => -- RESET, CRC.INIT and CRC.READ have no operands
    obtain ⟨rfl, rfl⟩ := noOperands_eq_ok h
    exact ⟨rfl, rfl⟩
  case h_2 => -- CFG.INIT has a bit
    split at h
    · obtain ⟨ok, hb, rfl⟩ := exceptMap_eq_ok h
      exact ⟨rfl, by rw [bitOperand_eq_ok hb]; rfl⟩
    · cases h
  case h_4 => -- CRC.UPDATE has a byte
    split at h
    · cases h
      exact ⟨rfl, rfl⟩
    · cases h
  case h_6 | h_8 => -- CRC.COMPUTE and DECODE have a byte sequence
    cases h
    exact ⟨rfl, rfl⟩
  case h_7 => -- ENCODE has three bits and a payload
    obtain ⟨q, a, f, payload, rfl, rfl⟩ := encodeOperands_eq_ok h
    exact ⟨rfl, rfl⟩
  case h_9 | h_10 => -- ISVALID and ISWELLFORMED have a frame record
    obtain ⟨F, hF, rfl⟩ := exceptMap_eq_ok h
    obtain ⟨rfl, hfits⟩ := frameOperand_eq_ok hF
    exact ⟨payloadFits_eq_true.2 hfits, rfl⟩
  case h_11 => -- TMR.START has a delay
    obtain ⟨rfl, hw⟩ := onlyOn_eq_ok h
    split at hw
    · cases hw
    · rename_i d more hd
      obtain ⟨rfl, rfl⟩ := noOperands_eq_ok hw
      exact ⟨rfl, by rw [wordOperand_eq_ok hd, List.append_nil]; rfl⟩
  case h_12 | h_13 | h_14 | h_16 | h_17 | h_18 => -- the sender's operations without operands
    obtain ⟨rfl, rfl, rfl⟩ := onlyOn_noOperands_eq_ok h
    exact ⟨rfl, rfl⟩
  case h_15 | h_19 | h_20 => -- TX.LOAD, TX.RECV and RX.RECV have an address and a byte sequence
    obtain ⟨rfl, v, more, rfl, rfl⟩ := onlyOn_map_wordOperand_eq_ok h
    exact ⟨rfl, rfl⟩
  case h_21 => cases h -- any other label names no operation

/-- Settles O2: the bytes of a frame kind are those parsed, and each label's operand layout can be read back. -/
theorem encodeDecodeRoundTrip : Obligations.EncodeDecodeRoundTrip := by
  unfold Obligations.EncodeDecodeRoundTrip
  intro r i h
  cases r with
  | datagram => exact encode_of_decodeFrame h
  | op who bytes =>
    cases bytes with
    | nil => cases h
    | cons label args => exact encode_of_decodeLabel h

end Sys2Proof.Machine

namespace Sys2Proof.Machine

open Sys2Proof.Safety

/-! ### The arrival of a datagram (R194, R212, R232) -/

/-- R232: an instruction that is an arrival is examined by the receiving operation of its destination. -/
theorem exec_of_arrivalOfInstr {i : Instr} {a : Arrival} (h : arrivalOfInstr i = some a) (s : State) :
    exec i s = receiveAt hardware a.dest a.wire a.src s := by
  cases i with
  | data0 | data0f | ack0 | ack0f | data1 | data1f | ack1 | ack1f | txRecv | rxRecv => cases h; rfl
  | _ => cases h

theorem arrivalOfInstr_frameKind (q a f : Bool) (dest : Role) (src : Addr) (cks : BitVec 64) (payload : List Byte) :
    arrivalOfInstr (frameKind q a f dest src cks payload) =
      some ⟨dest, src, frameWire ⟨zextBit 32 q, zextBit 8 a, zextBit 8 f, cks, payload⟩⟩ := by
  cases q <;> cases a <;> cases f <;> rfl

/-- R95, R150: the frame record ENCODE builds carries the right checksum. -/
theorem builtFrame_eq (q a f : Bool) (payload : List Byte) :
    builtFrame q a f payload = ⟨zextBit 32 q, zextBit 8 a, zextBit 8 f, rightChecksum q a f payload, payload⟩ := by
  rw [builtFrame, buildWith, headerBytes_zextBit]
  rfl

/-- R99: a frame kind with the right checksum is the arrival of what ENCODE builds. -/
theorem arrivalOfInstr_frameKind_rightChecksum (q a f : Bool) (dest : Role) (src : Addr) (payload : List Byte) :
    arrivalOfInstr (frameKind q a f dest src (rightChecksum q a f payload) payload) =
      some ⟨dest, src, encodeBytes q a f payload⟩ := by
  rw [arrivalOfInstr_frameKind, ← builtFrame_eq]
  rfl

/-- R99, R103: a datagram arrives as its bytes at the receiving operation, or as what it decodes to. -/
theorem arrivalOfInstr_of_wire {i j : Instr} {dest : Role} {src : Addr} {wire : List Byte}
    (hj : arrivalOfInstr j = some ⟨dest, src, wire⟩) (hi : i = j ∨ decode (.datagram dest src wire) = .ok i) :
    arrivalOfInstr i = some ⟨dest, src, wire⟩ := by
  rcases hi with rfl | hd
  · exact hj
  · exact (arrivalOf_decoded hd).symm

/-- R101: an arriving datagram is examined by the receiving operation, whatever it decodes to. -/
theorem performBy_datagram (dest : Role) (src : Addr) (wire : List Byte) (s : State) :
    performBy exec hardware (.datagram dest src wire) s = receiveAt hardware dest wire src s := by
  cases hd : decode (.datagram dest src wire) with
  | ok i => rw [performBy_ok hd, exec_of_arrivalOfInstr (arrivalOf_decoded hd).symm]
  | error why => simp [performBy, hd]

/-- R223, R231: an arrival whose datagram is in flight takes it up, whatever it decodes to. -/
theorem startBy_datagram {s : State} {dest : Role} {src : Addr} {wire : List Byte} (hp : (ownEndpoint dest s).port.isSome = true)
    (hm : ⟨ownEndpoint dest s, src, wire⟩ ∈ s.inFlight) (hup : (sideOf dest s).inboundUp = true) :
    startBy exec hardware (.datagram dest src wire) s =
      receiveAt hardware dest wire src { s with inFlight := s.inFlight.erase ⟨ownEndpoint dest s, src, wire⟩ } := by
  rw [← performBy_datagram]
  simp [startBy, arrivalOf, arriveBy, inTransit, arriving, hp, hm, hup]

/-! ### What is not acceptable (R101, R211) -/

/-- R194, R211: the shared acceptance fails exactly for what is malformed, ill-formed or invalid. -/
theorem acceptWith_eq_none_iff {k : Config.Parameters} {wire : List Byte} :
    acceptWith k wire = none ↔ ∀ F, parseFrame wire = .ok F → frameWellFormed F = false ∨ validWith k F = false := by
  unfold acceptWith
  cases hp : parseFrame wire with
  | error why => simp
  | ok F => simp [Decidable.or_iff_not_imp_left]

/-- R194, R211: what is accepted decodes, and is well-formed and valid. -/
theorem acceptWith_eq_some {k : Config.Parameters} {wire : List Byte} {F : Frame} (h : acceptWith k wire = some F) :
    parseFrame wire = .ok F ∧ frameWellFormed F = true ∧ validWith k F = true := by
  unfold acceptWith at h
  cases hp : parseFrame wire with
  | error why => simp [hp] at h
  | ok G =>
    simp only [hp, Bool.and_eq_true, Option.ite_none_right_eq_some, Option.some.injEq] at h
    obtain ⟨⟨hw, hv⟩, rfl⟩ := h
    exact ⟨rfl, hw, hv⟩

theorem senderReady_of_waiting {s : State} (hi : s.sender.common.initDone = true) (hh : s.sender.common.halted = false)
    (hw : txWaiting s.sender.txState = true) : senderReady s = true := by
  simp [senderReady, hi, hh, hw]

theorem receiverReady_of_started {s : State} (hi : s.receiver.common.initDone = true) (hh : s.receiver.common.halted = false) :
    receiverReady s = true := by
  simp [receiverReady, hi, hh]

theorem toNat_zextBit (b : Bool) : (zextBit 32 b).toNat = b.toNat := by cases b <;> rfl

/-- R194: a ready sender discards what is not an acceptable acknowledgement of the chunk in hand. -/
theorem receiveAtSender_of_unmatched {k : Config.Parameters} {wire : List Byte} {s : State} (hr : senderReady s = true)
    (h : ∀ F, acceptWith k wire = some F → ackMatches F s.sender.txState = false) (src : Addr) :
    receiveAtSender k wire src s = .next s := by
  rcases receiveAtSender_cases k wire src s with ⟨hn, -⟩ | ⟨-, -, e⟩ | ⟨-, F, ha, hm, -⟩
  · simp [hr] at hn
  · exact e
  · simp [h F ha] at hm

/-- R211: a ready receiver discards what is not acceptable. -/
theorem receiveAtReceiver_of_unacceptable {k : Config.Parameters} {wire : List Byte} {s : State} (hr : receiverReady s = true)
    (h : acceptWith k wire = none) (src : Addr) : receiveAtReceiver k wire src s = .next s := by
  rw [receiveAtReceiver, if_pos hr, h, discard_eq]

/-- Settles O19: what fails the acceptance is discarded, as bytes and as a frame kind. -/
theorem receiverDiscardsUnacceptable : Obligations.ReceiverDiscardsUnacceptable := by
  unfold Obligations.ReceiverDiscardsUnacceptable
  intro s wire src i hi hinit hhalt hbad
  rw [exec_of_arrivalOfInstr (arrivalOfInstr_of_wire rfl hi)]
  exact receiveAtReceiver_of_unacceptable (receiverReady_of_started hinit hhalt) (acceptWith_eq_none_iff.2 hbad) src

/-- Settles O24: a frame that passes the shared acceptance fails the sender's own two tests. -/
theorem senderDiscardsUnmatched : Obligations.SenderDiscardsUnmatched := by
  unfold Obligations.SenderDiscardsUnmatched
  intro s wire src i hi hinit hhalt hwait hbad
  rw [exec_of_arrivalOfInstr (arrivalOfInstr_of_wire rfl hi)]
  refine receiveAtSender_of_unmatched (senderReady_of_waiting hinit hhalt hwait) (fun F ha => ?_) src
  obtain ⟨hp, hw, hv⟩ := acceptWith_eq_some ha
  rcases hbad F hp with h | h | h | h
  · cases h.symm.trans hw
  · cases h.symm.trans hv
  · rw [ackMatches, isAck, beq_eq_false_iff_ne.2 h, Bool.false_and]
  · have hne : F.seq ≠ zextBit 32 (txSeq s.sender.txState) := fun he => h (by rw [he, toNat_zextBit])
    rw [ackMatches, beq_eq_false_iff_ne.2 hne, Bool.and_false]

/-- R154: the lower half of a valid frame's checksum field is the checksum. -/
theorem setWidth_cks_of_frameValid {F : Frame} (h : frameValid F = true) : F.cks.setWidth 32 = crc32 (coveredBytes F) := by
  have hc : F.cks = (crc32 (coveredBytes F)).setWidth 64 := beq_iff_eq.1 h
  rw [hc, BitVec.setWidth_setWidth_of_le _ (by decide), BitVec.setWidth_eq]

/-- R101: every encoding outside the legal set fails the acceptance. -/
theorem acceptableFrame_eq_none {wire : List Byte} (h : wire.length < 14 ∨ 1414 < wire.length ∨
      ∃ F, parseFrame wire = .ok F ∧ (2 ≤ F.seq.toNat ∨ 2 ≤ F.ack.toNat ∨ 2 ≤ F.fin.toNat ∨ F.cks.extractLsb' 32 32 ≠ 0 ∨
        F.cks.setWidth 32 ≠ crc32 (coveredBytes F))) : acceptableFrame wire = none := by
  rcases h with h | h | ⟨F, hp, h⟩
  · simp [acceptWith, parseFrame, h]
  · simp [acceptWith, parseFrame, h, show ¬wire.length < 14 by omega]
  · refine acceptWith_eq_none_iff.2 fun G hG => ?_
    cases hp.symm.trans hG
    by_contra hgood
    rw [not_or, Bool.not_eq_false, Bool.not_eq_false, frameWellFormed_eq_true] at hgood
    obtain ⟨⟨hs, ha, hf⟩, hv⟩ := hgood
    rcases h with h | h | h | h | h
    · omega
    · omega
    · omega
    · exact h (extractLsb'_cks_of_frameValid hv)
    · exact h (setWidth_cks_of_frameValid hv)

/-- Settles O54: sender and receiver alike discard what fails the acceptance. -/
theorem badDatagramsAreDiscarded : Obligations.BadDatagramsAreDiscarded := by
  unfold Obligations.BadDatagramsAreDiscarded
  intro s dest src wire rest p hu hr hp hm hup hinit hhalt hwait hbad
  rw [step_of_agenda_cons hu hr]
  have hport : (ownEndpoint dest s).port.isSome = true := Option.isSome_of_eq_some hp
  have hnone := acceptableFrame_eq_none hbad
  cases dest with
  | sender =>
    refine (startBy_datagram (s := { s with agenda := rest }) hport hm hup).trans (receiveAtSender_of_unmatched ?_ ?_ src)
    · exact senderReady_of_waiting hinit hhalt (hwait rfl)
    · exact fun F ha => nomatch hnone.symm.trans ha
  | receiver =>
    refine (startBy_datagram (s := { s with agenda := rest }) hport hm hup).trans (receiveAtReceiver_of_unacceptable ?_ hnone src)
    exact receiverReady_of_started hinit hhalt

/-! ### A valid frame at the sender (R191, R192, R194) -/

/-- R99, R103: a valid frame arrives as its frame kind, or as its bytes at the receiving operation. -/
theorem arrivalOfInstr_of_validFrame {i j : Instr} {dest : Role} {src : Addr} {q a f : Bool} {payload : List Byte}
    (hj : arrivalOfInstr j = some ⟨dest, src, encodeBytes q a f payload⟩)
    (hi : i ∈ [frameKind q a f dest src (rightChecksum q a f payload) payload, j]) :
    arrivalOfInstr i = some ⟨dest, src, encodeBytes q a f payload⟩ := by
  rcases List.mem_pair.1 hi with rfl | rfl
  · exact arrivalOfInstr_frameKind_rightChecksum q a f dest src payload
  · exact hj

/-- R60 (d): a space written from nothing holds what was written. -/
theorem holdsExactly_writeBytes (bytes : List Byte) : holdsExactly (Memory.writeBytes [] 0 bytes) bytes := fun a => by
  rcases Nat.lt_or_ge a bytes.length with hlt | hge
  · simpa using Memory.read_writeBytes_inside [] 0 bytes hlt
  · rw [Memory.read_writeBytes_outside [] bytes (.inr (by omega)), List.getElem?_eq_none hge]
    rfl

/-- R194: a ready sender takes the acknowledgement of the chunk in hand. -/
theorem receiveAtSender_of_matching {k : Config.Parameters} {wire : List Byte} {F : Frame} {s : State} (hr : senderReady s = true)
    (ha : acceptWith k wire = some F) (hm : ackMatches F s.sender.txState = true) (src : Addr) :
    receiveAtSender k wire src s = .next (takeAck (noteAck k wire F s)) := by
  rw [receiveAtSender, if_pos hr, ha]
  exact if_pos hm

/-- R194: a built ACK frame with the bit of the chunk in hand is its acknowledgement. -/
theorem ackMatches_buildWith (k : Config.Parameters) (f : Bool) (payload : List Byte) (q : TxState) :
    ackMatches (buildWith k (txSeq q) true f payload) q = true := by
  simp [ackMatches, isAck, buildWith, zextBit]

/-- R191, R192: the whole effect of the acknowledgement of the chunk in hand. -/
theorem takeAck_of_waitForAckOf {q : Bool} {s : State} (h : s.sender.txState = waitForAckOf q) :
    takeAck s = { s with
      sender := { s.sender with
        tmrArmed := false
        txState := waitForCallAfter q
        txActive := if s.sender.txSent = s.sender.txLen then false else s.sender.txActive }
      outputs := s.outputs ++ (if s.sender.txSent = s.sender.txLen then [.done] else []) } := by
  unfold takeAck finishTransfer
  by_cases he : s.sender.txSent = s.sender.txLen <;> simp [h, he, cancelTimer, setTxState, mapSender, emit]

/-- Settles O23: the frame passes the five tests, and its acknowledgement is taken. -/
theorem senderAcceptsMatchingAck : Obligations.SenderAcceptsMatchingAck := by
  unfold Obligations.SenderAcceptsMatchingAck
  intro s src q f payload i hi hlen hinit hhalt hstate
  have hq : s.sender.txState = waitForAckOf q := hstate
  have hw : txWaiting s.sender.txState = true := by rw [hq, txWaiting_waitForAckOf]
  have hm : ackMatches (builtFrame q true f payload) s.sender.txState = true := by
    rw [hq]
    simpa using ackMatches_buildWith hardware f payload (waitForAckOf q)
  refine ⟨_, holdsExactly_writeBytes _, ?_⟩
  have ha := acceptableFrame_encodeBytes hardware q true f payload hlen
  rw [exec_of_arrivalOfInstr (arrivalOfInstr_of_validFrame rfl hi), receiveAt,
    receiveAtSender_of_matching (senderReady_of_waiting hinit hhalt hw) ha hm,
    takeAck_of_waitForAckOf (s := noteAck _ _ _ s) hq, noteAck_sender, coveredBytes_buildWith, crcAfter_hardware_eq_xor]
  rfl

/-! ### A valid frame at the receiver (R212 to R215) -/

/-- R213: the acknowledgement, as the spec prints it. -/
theorem encodeWith_ack (q : Bool) : encodeWith hardware q true false [] = ackBytes q := by
  cases q <;> decide +kernel

/-- R213: the accumulator the acknowledgement's checksum leaves. -/
theorem crcAfter_ack (q : Bool) : crcAfter hardware (coveredBytes (buildWith hardware q true false [])) = ackChecksum q ^^^ 0xFFFFFFFF := by
  cases q <;> decide +kernel

/-- R60, R213: the scratch after an accepted datagram `wire` whose acknowledgement has the bit `q` (logs 17, 32). -/
def ackScratch (q : Bool) (wire : List Byte) (c : Common) : Common :=
  { c with
    crcAcc := ackChecksum q ^^^ 0xFFFFFFFF
    frameOut := c.frameOut.writeBytes 0 (ackBytes q)
    frameIn := Memory.writeBytes [] 0 wire }

/-- R69, R213: the acknowledgement goes to where the frame came from. -/
theorem ackEndpoint_frameTaken (F : Frame) (src : Addr) (c : Common) (n : Receiver) :
    ackEndpoint (frameTaken F src c n) = ⟨src, c.portAck⟩ := by
  unfold ackEndpoint frameTaken
  split <;> rfl

/-- R212, R213: the whole effect of taking a frame in and acknowledging it. -/
theorem sendAck_takeIn (wire : List Byte) (src : Addr) (F : Frame) (s : State) :
    sendAck hardware (sequenceBit F) (takeIn wire src F s) = { s with
      receiver := frameTaken F src (ackScratch (sequenceBit F) wire s.receiver.common) s.receiver
      inFlight := s.inFlight ++ addedCopies .receiver ⟨src, s.receiver.common.portAck⟩ (ackBytes (sequenceBit F)) s
      outputs := s.outputs ++ [.sent .receiver ⟨src, s.receiver.common.portAck⟩ (ackBytes (sequenceBit F))]
      free := s.free + 1 } := by
  have htake : takeIn wire src F s = { s with
      receiver := frameTaken F src { s.receiver.common with frameIn := Memory.writeBytes [] 0 wire } s.receiver } :=
    congrArg (fun n => { s with receiver := n }) (takeIn_receiver wire src F s)
  rw [htake, sendAck, writeFrame_eq, crcAfter_ack, encodeWith_ack, ackEndpoint_frameTaken]
  rfl

/-- R153: the bits of a built frame that the receiver reads. -/
theorem sequenceBit_buildWith (k : Config.Parameters) (q a f : Bool) (payload : List Byte) :
    sequenceBit (buildWith k q a f payload) = q := by
  cases q <;> simp [sequenceBit, buildWith, zextBit]

theorem isFinal_buildWith (k : Config.Parameters) (q a f : Bool) (payload : List Byte) :
    isFinal (buildWith k q a f payload) = f := by
  cases f <;> simp [isFinal, buildWith, zextBit]

/-- R211, R212: a ready receiver takes what passes the acceptance. -/
theorem receiveAtReceiver_of_acceptable {k : Config.Parameters} {wire : List Byte} {F : Frame} {s : State}
    (hr : receiverReady s = true) (h : acceptWith k wire = some F) (src : Addr) :
    receiveAtReceiver k wire src s = acceptAtReceiver k wire src F s := by
  rw [receiveAtReceiver, if_pos hr, h]

/-- R212: with `RX_DEDUP = 0` no frame is a duplicate. -/
theorem isDuplicate_of_not_rxDedup {n : Receiver} (h : n.rxDedup = false) (F : Frame) : isDuplicate n F = false := by
  simp [isDuplicate, h]

/-- R218: a payload that fits does not overflow. -/
theorem overflows_eq_false {n : Receiver} {F : Frame} (h : ∀ m, n.rxBufMax = some m → n.rxLen + F.payload.length ≤ m) :
    overflows n F = false := by
  unfold overflows
  split
  · rfl
  · rename_i m hm
    exact decide_eq_false (Nat.not_lt.2 (h m hm))

/-- R15: two neighbouring blocks read one after the other. -/
theorem Memory.readBytes_add {m : Memory} {k a b : Nat} {front back : List Byte} (ha : m.readBytes k a = some front)
    (hb : m.readBytes (k + a) b = some back) : m.readBytes k (a + b) = some (front ++ back) := by
  induction a generalizing k front with
  | zero =>
    cases ha
    simpa using hb
  | succ a ih =>
    rw [Memory.readBytes] at ha
    split at ha
    · rename_i c cs hc hcs
      cases ha
      rw [Nat.add_right_comm a 1 b, Memory.readBytes, hc, ih hcs (by rwa [Nat.add_assoc, Nat.add_comm 1 a])]
      rfl
    · cases ha

/-- R212, R214: the bytes received so far, with a payload appended. -/
theorem readBytes_writeBytes_append {m : Memory} {n : Nat} {old : List Byte} (h : m.readBytes 0 n = some old) (bytes : List Byte) :
    (m.writeBytes n bytes).readBytes 0 (n + bytes.length) = some (old ++ bytes) := by
  have hold : (m.writeBytes n bytes).readBytes 0 n = some old :=
    (Memory.readBytes_congr fun i hi => Memory.read_writeBytes_outside m bytes (.inl (by omega))).trans h
  refine Memory.readBytes_add hold ?_
  rw [Nat.zero_add]
  exact Memory.readBytes_writeBytes m n bytes

/-- R212: what a frame that is no duplicate makes of the registers. -/
theorem frameTaken_of_not_duplicate {F : Frame} {n : Receiver} (h : isDuplicate n F = false) (src : Addr) (c : Common) :
    frameTaken F src c n = { appendPayload F (recordPeer src n) with common := c } := by
  simp [frameTaken, h]

/-- R212 to R214: the whole effect of an accepted frame that is no duplicate and fits. -/
theorem acceptAtReceiver_of_new {wire : List Byte} {src : Addr} {F : Frame} {s : State} {old : List Byte}
    (hdup : isDuplicate s.receiver F = false) (hfits : overflows s.receiver F = false)
    (hold : s.receiver.rxBuf.readBytes 0 s.receiver.rxLen = some old) :
    acceptAtReceiver hardware wire src F s = .next { s with
      receiver :=
        (if isFinal F then clearCycle else id)
          { appendPayload F (recordPeer src s.receiver) with
            common := ackScratch (sequenceBit F) wire s.receiver.common }
      inFlight := s.inFlight ++ addedCopies .receiver ⟨src, s.receiver.common.portAck⟩ (ackBytes (sequenceBit F)) s
      outputs := s.outputs ++ [.sent .receiver ⟨src, s.receiver.common.portAck⟩ (ackBytes (sequenceBit F))] ++
        (if isFinal F then [.delivered (old ++ F.payload)] else [])
      free := s.free + 1 } := by
  rw [acceptAtReceiver, hdup, hfits, sendAck_takeIn, frameTaken_of_not_duplicate hdup]
  cases isFinal F with
  | false => simp
  | true => exact deliverBuffer_next.2 ⟨_, readBytes_writeBytes_append hold F.payload, rfl⟩

/-- Settles O18: the frame is accepted, appended and acknowledged; with `RX_DEDUP = 0` it is never a duplicate. -/
theorem receiverAppendsAcknowledgesDelivers : Obligations.ReceiverAppendsAcknowledgesDelivers := by
  unfold Obligations.ReceiverAppendsAcknowledgesDelivers
  intro s src q a f payload old i hi hlen hinit hhalt hdedup hcap hold
  have ha := acceptableFrame_encodeBytes hardware q a f payload hlen
  have hdup := isDuplicate_of_not_rxDedup hdedup (builtFrame q a f payload)
  have hfits : overflows s.receiver (builtFrame q a f payload) = false := overflows_eq_false hcap
  refine ⟨_, _, _, stored_writeBytes _ _ _, stored_writeBytes _ _ _, holdsExactly_writeBytes _, ?_⟩
  rw [exec_of_arrivalOfInstr (arrivalOfInstr_of_validFrame rfl hi), receiveAt,
    receiveAtReceiver_of_acceptable (receiverReady_of_started hinit hhalt) ha, acceptAtReceiver_of_new hdup hfits hold,
    isFinal_buildWith, sequenceBit_buildWith]
  cases f <;> simp [appendPayload, recordPeer, clearCycle, ackScratch, buildWith, hdedup]

end Sys2Proof.Machine

namespace Sys2Proof.Machine

open Sys2Proof.Safety

/-! ### The checksum of a sequence (R133 to R136) -/

/-- R136 (c): the accumulator is incremental. -/
theorem crcAfter_append (front back : List Byte) :
    crcAfter hardware (front ++ back) = crcRun Config.crc (crcAfter hardware front) back := by
  rw [crcAfter_hardware, crcAfter_hardware]
  exact List.foldl_append

/-- R133: a read gives the complement of the accumulator. -/
theorem crc32_eq_crcRun (bytes : List Byte) : crc32 bytes = crcRun Config.crc 0xFFFFFFFF bytes ^^^ 0xFFFFFFFF := rfl

/-- R133, R136 (c): the checksum goes on from the complement of the shorter sequence's. -/
theorem crc32_append (front back : List Byte) :
    crc32 (front ++ back) = crcRun Config.crc (crc32 front ^^^ 0xFFFFFFFF) back ^^^ 0xFFFFFFFF := by
  rw [← crcAfter_hardware_eq_xor, ← crcAfter_append, crcAfter_hardware_eq_xor, BitVec.xor_assoc, BitVec.xor_self]
  exact BitVec.xor_zero.symm

@[simp] theorem commonOf_emit (who : Role) (o : Output) (s : State) : commonOf who (emit o s) = commonOf who s := by cases who <;> rfl

/-- Settles O7: the read writes only its answer, so the updates go on from the accumulator of the bytes before it. -/
theorem crcReadLeavesAccumulator : Obligations.CrcReadLeavesAccumulator := by
  unfold Obligations.CrcReadLeavesAccumulator
  refine ⟨fun _ => rfl, fun _ _ => exec_crcRead, fun who s done more h hacc => ?_, by decide +kernel⟩
  refine ⟨_, _, exec_crcRead h, updateAll_eq (by simpa using h) more, ?_⟩
  rw [exec_crcRead (by simpa using h), commonOf_setCrc, commonOf_emit, hacc, crc32_append]

/-- R135: shift steps only move down a word whose low end is zero, since each bit they shift out is zero. -/
theorem crcShifts_shiftLeft (poly : Crc) {n : Nat} {t : Crc} (h : t.toNat * 2 ^ n < 2 ^ 32) : crcShifts poly n (t <<< n) = t := by
  induction n with
  | zero => simp [crcShifts]
  | succ n ih =>
    rw [pow_succ, ← Nat.mul_assoc] at h
    have hlow : (t <<< (n + 1)).getLsbD 0 = false := by simp
    have hshift : t <<< (n + 1) >>> 1 = t <<< n := by
      refine BitVec.eq_of_toNat_eq ?_
      rw [BitVec.toNat_ushiftRight, BitVec.toNat_shiftLeft, BitVec.toNat_shiftLeft, Nat.shiftLeft_eq, Nat.shiftLeft_eq,
        Nat.shiftRight_eq_div_pow, pow_succ, ← Nat.mul_assoc, Nat.mod_eq_of_lt (by omega), Nat.mod_eq_of_lt (by omega)]
      omega
    rw [crcShifts, crcShift, hlow, if_neg Bool.false_ne_true, hshift]
    exact ih (by omega)

theorem shiftLeft_ushiftRight_xor_low (t : Crc) : t >>> 8 <<< 8 ^^^ (t.setWidth 8).setWidth 32 = t := by
  refine BitVec.eq_of_getLsbD_eq fun j hj => ?_
  by_cases hlow : j < 8
  · simp [hlow, hj]
  · simp [hlow, hj, show 8 + (j - 8) = j by omega]

/-- R135: eight shift steps move the upper three bytes down; only the lowest byte is reduced. -/
theorem crcShifts_eight (poly t : Crc) :
    crcShifts poly 8 t = t >>> 8 ^^^ crcShifts poly 8 ((t.setWidth 8).setWidth 32) := by
  have hupper : (t >>> 8).toNat * 2 ^ 8 < 2 ^ 32 := by
    have := t.isLt
    rw [BitVec.toNat_ushiftRight, Nat.shiftRight_eq_div_pow]
    omega
  calc crcShifts poly 8 t
      = crcShifts poly 8 (t >>> 8 <<< 8 ^^^ (t.setWidth 8).setWidth 32) := by rw [shiftLeft_ushiftRight_xor_low]
    _ = t >>> 8 ^^^ crcShifts poly 8 ((t.setWidth 8).setWidth 32) := by rw [crcShifts_xor, crcShifts_shiftLeft poly hupper]

/-- R135: the printed table is computed by the shift steps. -/
theorem crcTable_eq_map : crcTable = (List.range 256).map fun i => crcShifts 0xEDB88320 8 (BitVec.ofNat 32 i) := by decide +kernel

/-- R135: the entry of an index. -/
theorem crcTable_getElem? (i : Byte) : crcTable[i.toNat]? = some (crcShifts 0xEDB88320 8 (i.setWidth 32)) := by
  rw [crcTable_eq_map, List.getElem?_map, List.getElem?_range i.isLt, Option.map_some, BitVec.ofNat_toNat]

/-- R135: the byte enters at the low end, so what moves down is the accumulator's own. -/
theorem xor_setWidth_ushiftRight (acc : Crc) (b : Byte) : (acc ^^^ b.setWidth 32) >>> 8 = acc >>> 8 := by
  have hb : b.setWidth 32 >>> 8 = (0 : Crc) := by
    refine BitVec.eq_of_toNat_eq ?_
    have := b.isLt
    simp [Nat.shiftRight_eq_div_pow]
    omega
  rw [BitVec.ushiftRight_xor_distrib, hb]
  exact BitVec.xor_zero

/-- Settles O9: the upper three bytes move down, and the table holds what the lowest byte adds. -/
theorem crcTableFormAgrees : Obligations.CrcTableFormAgrees := by
  unfold Obligations.CrcTableFormAgrees
  refine ⟨crcTable_getElem?, fun acc b => ?_⟩
  rw [crcStepByTable, List.getD_eq_getElem?_getD, crcTable_getElem?, Option.getD_some, crcStep, crcShifts_eight, xor_setWidth_ushiftRight]
  rfl

/-- R136 (d): the accumulator is linear in its start and the bytes together. -/
theorem crcRun_xor (p : Config.CrcParams) (x y : Crc) {a b : List Byte} (h : a.length = b.length) :
    crcRun p (x ^^^ y) (List.zipWith (· ^^^ ·) a b) = crcRun p x a ^^^ crcRun p y b := by
  induction a generalizing b x y with
  | nil =>
    obtain rfl := List.length_eq_zero_iff.1 h.symm
    rfl
  | cons c a ih =>
    cases b with
    | nil => cases h
    | cons d b =>
      simp only [List.zipWith_cons_cons, crcRun, List.foldl_cons, crcStep_xor]
      exact ih _ _ (Nat.succ.inj h)

/-- R136 (d): of three sequences, two starts and two complements cancel. -/
theorem crc32_xor_xor {a b c : List Byte} (hab : a.length = b.length) (hbc : b.length = c.length) :
    crc32 a ^^^ crc32 b ^^^ crc32 c = crc32 (List.zipWith (· ^^^ ·) (List.zipWith (· ^^^ ·) a b) c) := by
  have hlen : (List.zipWith (· ^^^ ·) a b).length = c.length := by simp [hab, hbc]
  have hrun := crcRun_xor Config.crc (0xFFFFFFFF ^^^ 0xFFFFFFFF) 0xFFFFFFFF hlen
  rw [crcRun_xor Config.crc _ _ hab, BitVec.xor_self, BitVec.zero_xor] at hrun
  simp only [crc32_eq_crcRun, hrun]
  generalize crcRun Config.crc 0xFFFFFFFF a = x, crcRun Config.crc 0xFFFFFFFF b = y, crcRun Config.crc 0xFFFFFFFF c = z
  calc x ^^^ 0xFFFFFFFF ^^^ (y ^^^ 0xFFFFFFFF) ^^^ (z ^^^ 0xFFFFFFFF)
      = x ^^^ y ^^^ z ^^^ 0xFFFFFFFF ^^^ (0xFFFFFFFF ^^^ 0xFFFFFFFF) := by ac_rfl
    _ = x ^^^ y ^^^ z ^^^ 0xFFFFFFFF := by rw [BitVec.xor_self, BitVec.xor_zero]

/-- Settles O10: the empty sequence, the accumulator of an appended sequence, and the linear accumulator. -/
theorem crcIncrementalAndAffine : Obligations.CrcIncrementalAndAffine := by
  unfold Obligations.CrcIncrementalAndAffine
  exact ⟨rfl, crcAfter_append, fun _ _ _ => crc32_xor_xor⟩

/-- R136 (e): a run over given bytes keeps accumulators apart. -/
theorem crcRun_injective (bytes : List Byte) : Function.Injective fun acc => crcRun Config.crc acc bytes := by
  induction bytes with
  | nil => exact fun _ _ h => h
  | cons b bytes ih => exact fun _ _ h => (crcStep_bijective b).1 (ih h)

/-- R136 (e): the bytes of a span as one word, the first at the low end, where it enters the accumulator. -/
def spanWord (span : List Byte) : Crc := BitVec.ofNat 32 (fromBe span.reverse)

theorem fromBe_reverse_lt (span : List Byte) : fromBe span.reverse < 256 ^ span.length := by
  simpa using fromBe_lt span.reverse

theorem toNat_spanWord {span : List Byte} (h : span.length ≤ 4) : (spanWord span).toNat = fromBe span.reverse := by
  refine (BitVec.toNat_ofNat _ _).trans (Nat.mod_eq_of_lt ?_)
  calc fromBe span.reverse < 256 ^ span.length := fromBe_reverse_lt span
    _ ≤ 256 ^ 4 := Nat.pow_le_pow_right (by decide) h

/-- R136 (e): each later byte of the span stands eight bits higher. -/
theorem spanWord_cons (b : Byte) (span : List Byte) : spanWord (b :: span) = spanWord span <<< 8 ^^^ b.setWidth 32 := by
  refine BitVec.eq_of_getLsbD_eq fun j hj => ?_
  rw [spanWord, spanWord, List.reverse_cons, fromBe_snoc, Nat.mul_comm, BitVec.getLsbD_ofNat,
    Nat.testBit_two_pow_mul_add (i := 8) _ b.isLt, BitVec.getLsbD_xor, BitVec.getLsbD_shiftLeft, BitVec.getLsbD_setWidth,
    BitVec.getLsbD_ofNat]
  by_cases hlow : j < 8
  · simp [hlow, hj, BitVec.testBit_toNat]
  · simp [hlow, hj, BitVec.getLsbD_of_ge b j (by omega), show j - 8 < 32 by omega]

/-- R136 (e): spans of one length, at most four bytes, are told apart by their words. -/
theorem spanWord_inj {x y : List Byte} (hlen : x.length = y.length) (hle : x.length ≤ 4) (h : spanWord x = spanWord y) : x = y := by
  have hnat : fromBe x.reverse = fromBe y.reverse := by rw [← toNat_spanWord hle, h, toNat_spanWord (hlen ▸ hle)]
  have hbe := be_fromBe x.reverse
  rw [hnat, List.length_reverse, hlen, ← List.length_reverse (as := y), be_fromBe] at hbe
  exact (List.reverse_injective hbe).symm

theorem crcShifts_add (poly : Crc) (m n : Nat) (t : Crc) : crcShifts poly (m + n) t = crcShifts poly m (crcShifts poly n t) := by
  simp only [crcShifts_eq_iterate, Function.iterate_add_apply]

/-- R136 (e): at most four bytes enter the accumulator as one word, before any of the shift steps. -/
theorem crcRun_eq_crcShifts (acc : Crc) {span : List Byte} (h : span.length ≤ 4) :
    crcRun Config.crc acc span = crcShifts Config.crc.poly (8 * span.length) (acc ^^^ spanWord span) := by
  induction span generalizing acc with
  | nil => simp [crcRun, crcShifts, spanWord, fromBe]
  | cons b span ih =>
    have hlen : span.length ≤ 3 := Nat.le_of_succ_le_succ h
    have hfits : (spanWord span).toNat * 2 ^ 8 < 2 ^ 32 := by
      have hlt : fromBe span.reverse < 256 ^ 3 := (fromBe_reverse_lt span).trans_le (Nat.pow_le_pow_right (by decide) hlen)
      rw [toNat_spanWord (by omega)]
      omega
    calc crcRun Config.crc acc (b :: span)
        = crcRun Config.crc (crcShifts Config.crc.poly 8 (acc ^^^ b.setWidth 32)) span := rfl
      _ = crcShifts Config.crc.poly (8 * span.length) (crcShifts Config.crc.poly 8 (acc ^^^ b.setWidth 32) ^^^ spanWord span) :=
          ih _ (by omega)
      _ = crcShifts Config.crc.poly (8 * span.length) (crcShifts Config.crc.poly 8 (acc ^^^ b.setWidth 32 ^^^ spanWord span <<< 8)) := by
          rw [crcShifts_xor _ 8 (acc ^^^ _), crcShifts_shiftLeft _ hfits]
      _ = crcShifts Config.crc.poly (8 * (span.length + 1)) (acc ^^^ spanWord (b :: span)) := by
          rw [Nat.mul_succ, crcShifts_add, spanWord_cons]
          congr 2
          ac_rfl

/-- R136 (e): different spans of at most four bytes lead one accumulator to different ones. -/
theorem crcRun_span_inj {acc : Crc} {x y : List Byte} (hlen : x.length = y.length) (hle : x.length ≤ 4)
    (h : crcRun Config.crc acc x = crcRun Config.crc acc y) : x = y := by
  rw [crcRun_eq_crcShifts acc hle, crcRun_eq_crcShifts acc (hlen ▸ hle), hlen] at h
  exact spanWord_inj hlen hle ((BitVec.xor_right_inj _).1 (crcShifts_injective (by decide) _ h))

/-- Settles O11: the spans lead to different accumulators, which the bytes after them keep apart. -/
theorem crcDetectsFourByteBursts : Obligations.CrcDetectsFourByteBursts := by
  unfold Obligations.CrcDetectsFourByteBursts
  intro before x y after hlen hle hne h
  have hacc : crcAfter hardware (before ++ x ++ after) = crcAfter hardware (before ++ y ++ after) :=
    congrArg (· ^^^ Config.crc.xorOut) h
  simp only [crcAfter_append] at hacc
  exact hne (crcRun_span_inj hlen hle (crcRun_injective after hacc))

end Sys2Proof.Machine

namespace Sys2Proof.Machine

/-! ### The frame codec as a whole (R156, R157) -/

/-- R156: what ENCODE builds is a valid, well-formed frame, whatever the checksum (R10). -/
theorem builtFrame_accepted (k : Config.Parameters) (q a f : Bool) {payload : List Byte} (h : payload.length ≤ Config.packetSize) :
    parseFrame (encodeWith k q a f payload) = .ok (buildWith k q a f payload) ∧
      frameWellFormed (buildWith k q a f payload) = true ∧ validWith k (buildWith k q a f payload) = true :=
  acceptWith_eq_some (acceptableFrame_encodeBytes k q a f payload h)

/-- R156: a valid, well-formed frame is the one ENCODE builds from its fields. -/
theorem buildWith_of_valid {k : Config.Parameters} {F : Frame} (hw : frameWellFormed F = true) (hv : validWith k F = true) :
    buildWith k (F.seq.getLsbD 0) (F.ack.getLsbD 0) (F.fin.getLsbD 0) F.payload = F := by
  obtain ⟨hs, ha, hf⟩ := frameWellFormed_eq_true.1 hw
  have hc : F.cks = (k.crc32 (coveredBytes F)).setWidth 64 := beq_iff_eq.1 hv
  rw [buildWith, ← eq_zextBit_of_toNat_le_one hs, ← eq_zextBit_of_toNat_le_one ha, ← eq_zextBit_of_toNat_le_one hf]
  exact (Frame.mk.injEq ..).mpr ⟨rfl, rfl, rfl, hc.symm, rfl⟩

/-- Settles O14: the built frame is the parsed one, in each direction. -/
theorem frameCodecRoundTrip : Obligations.FrameCodecRoundTrip := by
  unfold Obligations.FrameCodecRoundTrip
  refine ⟨fun k q a f payload hlen => ?_, fun k wire F hp hw hv => ?_⟩
  · obtain ⟨hp, hw, hv⟩ := builtFrame_accepted k q a f hlen
    exact ⟨_, hp, by cases q <;> rfl, by cases a <;> rfl, by cases f <;> rfl, rfl, hv, hw⟩
  · rw [encodeWith, buildWith_of_valid hw hv]
    exact (frameWire_of_parseFrame hp).1

/-- R136 (e): a change of one byte is a change of the checksum. -/
theorem crc32_set_ne {bytes : List Byte} {j : Nat} {x : Byte} (h : bytes.set j x ≠ bytes) : crc32 (bytes.set j x) ≠ crc32 bytes := by
  have hj : j < bytes.length := Nat.lt_of_not_le fun hle => h (List.set_eq_of_length_le hle)
  have hx : [x] ≠ [bytes[j]] := fun he => h (by rw [List.singleton_inj.1 he, List.set_getElem_self])
  have hcut : bytes.take j ++ [bytes[j]] ++ bytes.drop (j + 1) = bytes := by simp
  have hset : bytes.take j ++ [x] ++ bytes.drop (j + 1) = bytes.set j x := by simp [List.set_eq_take_append_cons_drop, hj]
  rw [← hset]
  conv_rhs => rw [← hcut]
  exact crcDetectsFourByteBursts (bytes.take j) [x] [bytes[j]] _ rfl (by simp) hx

/-- R90, R98: the checksum covers the datagram but for the checksum field, offsets 6 to 13. -/
theorem coveredBytes_of_parseFrame {wire : List Byte} {F : Frame} (h : parseFrame wire = .ok F) :
    coveredBytes F = wire.take 6 ++ wire.drop 14 := by
  have hhead : (frameHeader F).length = 6 := headerBytes_length ..
  have hfront : (frameHeader F ++ be 8 F.cks.toNat).length = 14 := by rw [List.length_append, hhead, be_length]
  rw [← (frameWire_of_parseFrame h).1, frameWire, List.drop_left' hfront, List.append_assoc, List.take_left' hhead, coveredBytes]

/-- R152: the checksum field is read at offsets 6 to 13. -/
theorem cks_of_parseFrame {wire : List Byte} {F : Frame} (h : parseFrame wire = .ok F) :
    F.cks = BitVec.ofNat 64 (fromBe (slice 6 14 wire)) := by
  unfold parseFrame at h
  split at h
  · cases h
  split at h
  · cases h
  · injection h with h
    rw [← h]

/-- R90: a frame's wire bytes are the covered ones and the checksum field. -/
theorem frameWire_congr {F G : Frame} (hcov : coveredBytes F = coveredBytes G) (hcks : F.cks = G.cks) : frameWire F = frameWire G := by
  obtain ⟨hhead, hpay⟩ := List.append_inj hcov (by simp only [frameHeader, headerBytes_length])
  rw [frameWire, frameWire, hhead, hcks, hpay]

/-! One byte of a datagram that decodes to `G` is changed, and the changed datagram decodes to `F`. -/
section OneByte

variable {wire : List Byte} {k : Nat} {x : Byte} {F G : Frame} (hG : parseFrame wire = .ok G) (hF : parseFrame (wire.set k x) = .ok F)
include hG hF

/-- R157: a change within the checksum field leaves the covered bytes as they are. -/
theorem coveredBytes_of_set_cks (h6 : 6 ≤ k) (h14 : k < 14) : coveredBytes F = coveredBytes G := by
  rw [coveredBytes_of_parseFrame hF, coveredBytes_of_parseFrame hG, List.take_set_of_le h6, List.drop_set_of_lt h14]

/-- R157: a change elsewhere leaves the checksum field as it is. -/
theorem cks_of_set_covered (hk : k < 6 ∨ 14 ≤ k) : F.cks = G.cks := by
  have hslice : slice 6 14 (wire.set k x) = slice 6 14 wire := by
    unfold slice
    rcases hk with hk | hk
    · rw [List.drop_set_of_lt hk]
    · rw [List.drop_set, if_neg (by omega), List.take_set_of_le (by omega)]
  rw [cks_of_parseFrame hF, cks_of_parseFrame hG, hslice]

/-- R157: a change elsewhere changes at most one covered byte. -/
theorem coveredBytes_of_set_covered (hk : k < 6 ∨ 14 ≤ k) : ∃ j, coveredBytes F = (coveredBytes G).set j x := by
  have hlen : 14 ≤ wire.length := by
    rw [← (frameWire_of_parseFrame hG).1, frameWire_length]
    exact Nat.le_add_right ..
  have h6 : (wire.take 6).length = 6 := List.length_take_of_le (by omega)
  rw [coveredBytes_of_parseFrame hF, coveredBytes_of_parseFrame hG]
  rcases hk with hk | hk
  · refine ⟨k, ?_⟩
    rw [List.set_append_left _ _ (by omega), List.take_set, List.drop_set_of_lt (by omega)]
  · refine ⟨6 + (k - 14), ?_⟩
    rw [List.set_append_right _ _ (by omega), List.take_set_of_le (by omega), List.drop_set, if_neg (by omega), h6,
      Nat.add_sub_cancel_left]

/-- R157: a true change within the checksum field is one of the transmitted checksum. -/
theorem cks_ne_of_set_cks (hne : wire.set k x ≠ wire) (h6 : 6 ≤ k) (h14 : k < 14) : F.cks ≠ G.cks := fun hcks => hne <| by
  rw [← (frameWire_of_parseFrame hF).1, ← (frameWire_of_parseFrame hG).1]
  exact frameWire_congr (coveredBytes_of_set_cks hG hF h6 h14) hcks

/-- R157: a true change elsewhere is one of the recomputed checksum. -/
theorem crc32_ne_of_set_covered (hne : wire.set k x ≠ wire) (hk : k < 6 ∨ 14 ≤ k) :
    crc32 (coveredBytes F) ≠ crc32 (coveredBytes G) := by
  obtain ⟨j, hj⟩ := coveredBytes_of_set_covered hG hF hk
  have hcov : coveredBytes F ≠ coveredBytes G := fun hcov => hne <| by
    rw [← (frameWire_of_parseFrame hF).1, ← (frameWire_of_parseFrame hG).1]
    exact frameWire_congr hcov (cks_of_set_covered hG hF hk)
  rw [hj] at hcov ⊢
  exact crc32_set_ne hcov

/-- R157: one changed byte makes a valid frame invalid, since one side of the comparison changes and the other does not. -/
theorem not_frameValid_of_set (hne : wire.set k x ≠ wire) (hv : frameValid G = true) : frameValid F = false := by
  refine Bool.eq_false_iff.2 fun hvF => ?_
  by_cases hk : 6 ≤ k ∧ k < 14
  · obtain ⟨h6, h14⟩ := hk
    refine cks_ne_of_set_cks hG hF hne h6 h14 ?_
    rw [beq_iff_eq.1 hvF, beq_iff_eq.1 hv, coveredBytes_of_set_cks hG hF h6 h14]
  · have hout : k < 6 ∨ 14 ≤ k := by omega
    refine crc32_ne_of_set_covered hG hF hne hout ?_
    rw [← setWidth_cks_of_frameValid hvF, ← setWidth_cks_of_frameValid hv, cks_of_set_covered hG hF hout]

end OneByte

/-- Settles O17: the changed byte is one of the transmitted checksum, or one the recomputed checksum covers. -/
theorem singleByteChangeIsInvalid : Obligations.SingleByteChangeIsInvalid := by
  unfold Obligations.SingleByteChangeIsInvalid
  intro q a f payload k x hlen hk hx
  obtain ⟨hG, -, hv⟩ := builtFrame_accepted hardware q a f hlen
  have hne : (encodeBytes q a f payload).set k x ≠ encodeBytes q a f payload := fun he =>
    hx (by rw [← he]; exact List.getElem?_set_self hk)
  have hsize : ((encodeBytes q a f payload).set k x).length = 14 + payload.length := List.length_set.trans (frameWire_length _)
  have hF := parseFrame_of_length (wire := (encodeBytes q a f payload).set k x) (by omega) (by omega)
  exact ⟨_, hF, not_frameValid_of_set hG hF hne hv,
    fun ⟨h6, h14⟩ => ⟨coveredBytes_of_set_cks hG hF h6 h14, cks_ne_of_set_cks hG hF hne h6 h14⟩,
    fun hout => ⟨cks_of_set_covered hG hF hout, crc32_ne_of_set_covered hG hF hne hout⟩⟩

end Sys2Proof.Machine

namespace Sys2Proof.Machine

open Sys2Proof.Safety

/-! ### The Timeout and the ticks as whole states (R172, R190) -/

/-- R188: the whole effect of `EmitChunk` on this hardware. -/
theorem emitBytes_hardware (q : Bool) (b : List Byte) (s : State) :
    emitBytes hardware q b s = { s with
      sender := { s.sender with
        common := { s.sender.common with
          crcAcc := crc32 (prefixBytes q false (chunkFinal s.sender) ++ b) ^^^ 0xFFFFFFFF
          frameOut := s.sender.common.frameOut.writeBytes 0 (encodeBytes q false (chunkFinal s.sender) b) }
        txSent := s.sender.txSent + chunkSize s.sender
        txLast := BitVec.ofNat 11 (chunkSize s.sender)
        tmrCount := s.sender.timeoutMs
        tmrArmed := true }
      inFlight := s.inFlight ++ addedCopies .sender (dataEndpoint s.sender) (encodeBytes q false (chunkFinal s.sender) b) s
      outputs := s.outputs ++ [.sent .sender (dataEndpoint s.sender) (encodeBytes q false (chunkFinal s.sender) b)]
      free := s.free + 1 } := by
  rw [emitBytes, writeFrame_eq, coveredBytes_buildWith, crcAfter_hardware_eq_xor]
  rfl

/-- R190: the roll-back leads to where the chunk in hand begins. -/
theorem rollBack_of_txSent {s : State} {start : Nat} (h : s.sender.txSent = start + s.sender.txLast.toNat) :
    rollBack s = { s with sender := { s.sender with txSent := start } } :=
  congrArg (fun sent => { s with sender := { s.sender with txSent := sent } }) (by omega)

/-- R190: in a `WaitForAck` state the `Timeout` sends the chunk in hand from the rolled-back offset. -/
theorem takeTimeout_of_waitForAckOf {k : Config.Parameters} {q : Bool} {start : Nat} {chunk : List Byte} {s : State}
    (hq : s.sender.txState = waitForAckOf q) (hsent : s.sender.txSent = start + s.sender.txLast.toNat)
    (hle : start ≤ s.sender.txLen) (hb : s.sender.txBuf.readBytes start (min 1400 (s.sender.txLen - start)) = some chunk) :
    takeTimeout k s = .next (emitBytes k q chunk { s with sender := { s.sender with txSent := start } }) := by
  refine takeTimeout_next.2 (.inl ⟨by rw [hq, txWaiting_waitForAckOf], by omega, ?_⟩)
  rw [hq, txSeq_waitForAckOf, rollBack_of_txSent hsent]
  exact emitChunk_next.2 ⟨hle, chunk, hb, rfl⟩

/-- R173: when the expiry is due. -/
theorem expiryEnabled_iff {s : State} (hh : s.sender.common.halted = false) :
    expiryEnabled s = true ↔ s.sender.tmrArmed = true ∧ s.sender.tmrCount = 0 := by
  simp [expiryEnabled, hh]

/-- R173, R174: the expiry, when due, disarms the timer and is a `Timeout`. -/
theorem exec_tmrExpire_of_due {s : State} (hh : s.sender.common.halted = false) (ha : s.sender.tmrArmed = true)
    (hc : s.sender.tmrCount = 0) : exec .tmrExpire s = takeTimeout hardware (cancelTimer s) := by
  rw [exec, execTmrExpire, expireWith, unlessHalted_eq (who := .sender) hh, if_pos ((expiryEnabled_iff hh).2 ⟨ha, hc⟩)]

/-- Settles O31: TX.TIMEOUT and the expiry take the same `Timeout`, with the timer as it is or disarmed; sending the chunk arms it. -/
theorem timeoutResendsChunk : Obligations.TimeoutResendsChunk := by
  unfold Obligations.TimeoutResendsChunk
  intro s i q start n chunk hh hi hq hsent hle hn hb
  subst hn
  have hexec : ∃ armed, exec i s = takeTimeout hardware { s with sender := { s.sender with tmrArmed := armed } } := by
    rcases hi with ⟨rfl, hinit⟩ | ⟨rfl, ha, hc⟩
    · exact ⟨s.sender.tmrArmed, whenStarted_eq hinit hh _⟩
    · exact ⟨false, exec_tmrExpire_of_due hh ha hc⟩
  obtain ⟨armed, hexec⟩ := hexec
  refine ⟨_, stored_writeBytes _ _ _, ?_⟩
  rw [hexec, takeTimeout_of_waitForAckOf (s := { s with sender := { s.sender with tmrArmed := armed } }) hq hsent hle hb,
    emitBytes_hardware]
  rfl

/-- R172: a tick of a timer that stands at a count other than 0. -/
theorem exec_tmrTick_startTimer {s : State} {d : BitVec 32} (hh : s.sender.common.halted = false) (hd : d ≠ 0) :
    exec .tmrTick (startTimer d s) = .next (startTimer (d - 1) s) := by
  have htick : tickTimer (startTimer d s).sender = (startTimer (d - 1) s).sender :=
    if_pos (Bool.and_eq_true_iff.2 ⟨rfl, decide_eq_true hd⟩)
  rw [exec, execTmrTick, unlessHalted_eq (who := .sender) (s := startTimer d s) hh, mapSender, htick]
  rfl

/-- R172: as many ticks as the count allows; by induction on the ticks, the first of which leaves the others a count one less. -/
theorem tickTimes_startTimer {s : State} {k : Nat} {d : BitVec 32} (hh : s.sender.common.halted = false) (hk : k ≤ d.toNat) :
    tickTimes k (startTimer d s) = .next (startTimer (d - BitVec.ofNat 32 k) s) := by
  induction k generalizing d with
  | zero => rw [tickTimes, BitVec.sub_zero]
  | succ k ih =>
    have hd : d ≠ 0 := by bv_omega
    have hcount : d - 1 - BitVec.ofNat 32 k = d - BitVec.ofNat 32 (k + 1) := by bv_omega
    rw [tickTimes, exec_tmrTick_startTimer hh hd, andThen, ih (by bv_omega), hcount]

/-- Settles O32: the ticks count the delay down, and the count is 0 when there were as many as the delay. -/
theorem timerCountsTicks : Obligations.TimerCountsTicks := by
  unfold Obligations.TimerCountsTicks
  intro s d k hi hh hk
  refine ⟨startTimer (d - BitVec.ofNat 32 k) s, ?_, rfl, ?_⟩
  · rw [exec, execTmrStart, whenStarted_eq hi hh, andThen, tickTimes_startTimer hh hk]
  · have hzero : d - BitVec.ofNat 32 k = 0 ↔ k = d.toNat := by bv_omega
    rw [expiryEnabled_iff (s := startTimer _ s) hh, startTimer_sender]
    exact (and_iff_right rfl).trans hzero

/-! ### What is not enabled (R223, R282) -/

/-- R32: the two `WaitForCall` states. -/
theorem txWaiting_of_waitForCall {q : TxState} (h : q = .waitForCall0 ∨ q = .waitForCall1) : txWaiting q = false := by
  rcases h with rfl | rfl <;> rfl

/-- R32: the two `WaitForAck` states. -/
theorem txWaiting_of_waitForAck {q : TxState} (h : q = .waitForAck0 ∨ q = .waitForAck1) : txWaiting q = true := by
  rcases h with rfl | rfl <;> rfl

/-- R282: before CFG.INIT the sender's units do nothing. -/
theorem whenStarted_of_not_initDone {s : State} (hi : s.sender.common.initDone = false) (hh : s.sender.common.halted = false)
    (o : Outcome) : whenStarted s o = .refused (.notEnabled .notStarted) := by
  simp [whenStarted, commonOf, hi, hh]

/-- R223: an arrival without its datagram in flight is refused. -/
theorem startBy_of_not_inFlight {ex : Instr → State → Outcome} {k : Config.Parameters} {r : Request} {a : Arrival} {s : State}
    (ha : arrivalOf r = some a) (h : ∀ d ∈ s.inFlight, d ≠ arriving a s) :
    startBy ex k r s = .refused (.notEnabled .noDatagram) := by
  have hnot : arriving a s ∉ s.inFlight := fun hm => h _ hm rfl
  simp [startBy, ha, arriveBy, inTransit, hnot]

/-- Settles O45: each operation's own guard, and the two guards of the step. -/
theorem failedGuardsHaveNoTransition : Obligations.FailedGuardsHaveNoTransition := by
  unfold Obligations.FailedGuardsHaveNoTransition
  refine fun s => ⟨fun h buf dest => ?_, fun hq ha => ?_, fun hh h => ?_, fun hi hh i h => ?_, ?_, ?_⟩
  · exact if_pos (by simpa [or_comm] using h)
  · simp [exec, execTxSendPacket, sendPacketWith, sendEnabled, txWaiting_of_waitForCall hq, ha]
  · exact exec_tmrExpire_of_not_due hh (by simpa [expiryEnabled, hh, or_iff_not_imp_left] using h)
  · rcases h with ⟨d, rfl⟩ | rfl | rfl | rfl <;> exact whenStarted_of_not_initDone hi hh _
  · intro r i rest hu hr hd h
    have hnone : arrivalOfInstr i = none ∧ startable i = false := by
      rcases h with ⟨d, rfl⟩ | rfl | rfl | rfl <;> exact ⟨rfl, rfl⟩
    obtain ⟨ha, hs⟩ := hnone
    rw [step_of_agenda_cons hu hr]
    exact startBy_never ((arrivalOf_decoded hd).trans ha) hd hs
  · intro r i a rest hu hr hd ha h
    rw [step_of_agenda_cons hu hr]
    exact startBy_of_not_inFlight ((arrivalOf_decoded hd).trans ha) h

/-! ### With no event to come (R173, R189, R225) -/

/-- Settles O52: which of the two spontaneous operations is enabled. -/
theorem stepAtRest : Obligations.StepAtRest := by
  unfold Obligations.StepAtRest
  intro s hu hr
  rw [step_of_agenda_nil hu hr, spontaneousBy]
  refine ⟨fun hh ha hq => if_pos ?_, fun hh hq ha hc => ?_, fun hs he => ?_⟩
  · simp [sendEnabled, hh, ha, txWaiting_of_waitForCall hq]
  · have hs : sendEnabled s = false := by simp [sendEnabled, txWaiting_of_waitForAck hq]
    rw [if_neg (by simp [hs]), if_pos ((expiryEnabled_iff hh).2 ⟨ha, hc⟩)]
  · rw [if_neg (by simp [hs]), if_neg (by simp [he])]

end Sys2Proof.Machine

namespace Sys2Proof.Machine

open Sys2Proof.Safety

/-! ### The sender's operations as whole states (R186 to R193) -/

/-- Settles O33: an accepted load. -/
theorem txLoadStartsTransfer : Obligations.TxLoadStartsTransfer := by
  unfold Obligations.TxLoadStartsTransfer
  intro s buf dest hi hh ha
  exact ⟨_, stored_writeBytes _ _ _, execTxLoad_of_idle hi hh ha⟩

/-- Settles O34: the guard of an active transfer. -/
theorem txLoadRefusedWhileActive : Obligations.TxLoadRefusedWhileActive := by
  unfold Obligations.TxLoadRefusedWhileActive
  intro s buf dest hi hh ha
  rw [exec, execTxLoad, if_neg (by simp [hi, hh]), if_pos ha]
  rfl

/-- R188, R189: the whole effect of an enabled TX.SENDPACKET. -/
theorem exec_txSendPacket_of_calling {s : State} {q : Bool} {b : List Byte} (hh : s.sender.common.halted = false)
    (ha : s.sender.txActive = true) (hw : txWaiting s.sender.txState = false) (hq : txSeq s.sender.txState = q)
    (hle : s.sender.txSent ≤ s.sender.txLen)
    (hb : s.sender.txBuf.readBytes s.sender.txSent (chunkSize s.sender) = some b) :
    exec .txSendPacket s = .next { s with
      sender := chunkSent q (crc32 (prefixBytes q false (chunkFinal s.sender) ++ b) ^^^ 0xFFFFFFFF)
        (s.sender.common.frameOut.writeBytes 0 (encodeBytes q false (chunkFinal s.sender) b)) s.sender
      inFlight := s.inFlight ++ addedCopies .sender (dataEndpoint s.sender) (encodeBytes q false (chunkFinal s.sender) b) s
      outputs := s.outputs ++ [chunkSend hardware q b s.sender]
      free := s.free + 1 } := by
  subst hq
  have hemit := emitChunk_next (k := hardware) (q := txSeq s.sender.txState) |>.2 ⟨hle, b, hb, rfl⟩
  refine (sendPacketWith_next.2 ⟨hh, .inr ⟨hw, ha, _, hemit, rfl⟩⟩).trans ?_
  rw [emitBytes_hardware]
  rfl

/-- R32: the `WaitForCall` state of a sequence bit. -/
theorem waitForCall_of_eq {x : TxState} {q : Bool} (h : x = if q then .waitForCall1 else .waitForCall0) :
    txWaiting x = false ∧ txSeq x = q := by
  subst h
  cases q <;> exact ⟨rfl, rfl⟩

/-- Settles O35: the chunk of the statement is the one `EmitChunk` reads. -/
theorem txSendPacketSendsChunk : Obligations.TxSendPacketSendsChunk := by
  unfold Obligations.TxSendPacketSendsChunk
  intro s q n chunk hh ha hstate hle hn hb
  subst hn
  obtain ⟨hw, hq⟩ := waitForCall_of_eq hstate
  exact ⟨_, stored_writeBytes _ _ _, exec_txSendPacket_of_calling hh ha hw hq hle hb⟩

/-- Settles O36: the acknowledgement of the chunk in hand. -/
theorem txPacketReceivedAdvances : Obligations.TxPacketReceivedAdvances := by
  unfold Obligations.TxPacketReceivedAdvances
  intro s q hi hh hstate
  rw [exec, execTxPacketReceived, whenStarted_eq hi hh, takeAck_of_waitForAckOf hstate]
  rfl

/-- R193: in a `WaitForCall` state there is nothing to repeat and nothing to acknowledge. -/
theorem takeTimeout_of_not_waiting {s : State} (h : txWaiting s.sender.txState = false) (k : Config.Parameters) :
    takeTimeout k s = .next s :=
  takeTimeout_next.2 (.inr ⟨h, rfl⟩)

theorem takeAck_of_not_waiting {s : State} (h : txWaiting s.sender.txState = false) : takeAck s = s :=
  if_neg (by simp [h])

/-- Settles O37: which states await an acknowledgement. -/
theorem unlistedPairsHaveNoEffect : Obligations.UnlistedPairsHaveNoEffect := by
  unfold Obligations.UnlistedPairsHaveNoEffect
  intro s hi hh
  refine ⟨fun h => sendPacketWith_next.2 ⟨hh, .inl ⟨txWaiting_of_waitForAck h, rfl⟩⟩, fun h => ⟨?_, ?_⟩⟩
  · exact (whenStarted_eq hi hh _).trans (takeTimeout_of_not_waiting (txWaiting_of_waitForCall h) hardware)
  · rw [exec, execTxPacketReceived, whenStarted_eq hi hh, takeAck_of_not_waiting (txWaiting_of_waitForCall h)]

/-! ### What the sender ignores, and what finds its destination not ready (R195, R196, R232) -/

/-- R195: a valid ACK frame of the chunk in hand, whatever its END flag, payload and source, is the acknowledgement of that chunk. -/
theorem exec_ackFrame_of_matching {s : State} {i : Instr} {src : Addr} {f : Bool} {payload : List Byte}
    (hi : arrivalOfInstr i = some ⟨.sender, src, encodeBytes (txSeq s.sender.txState) true f payload⟩)
    (hlen : payload.length ≤ 1400) (hr : senderReady s = true) :
    exec i s = .next (takeAck (noteAck hardware (encodeBytes (txSeq s.sender.txState) true f payload)
      (builtFrame (txSeq s.sender.txState) true f payload) s)) := by
  rw [exec_of_arrivalOfInstr hi]
  exact receiveAtSender_of_matching hr (acceptableFrame_encodeBytes hardware _ true f payload hlen)
    (ackMatches_buildWith hardware f payload _) src

/-- R92: the sequence field tells the two bits apart. -/
theorem zextBit_injective : Function.Injective (zextBit 32) := by decide

/-- R194: a valid frame of the other sequence bit is discarded. -/
theorem exec_frame_of_other_bit {s : State} {i : Instr} {src : Addr} {q a f : Bool} {payload : List Byte}
    (hi : arrivalOfInstr i = some ⟨.sender, src, encodeBytes q a f payload⟩) (hlen : payload.length ≤ 1400)
    (hr : senderReady s = true) (hq : q ≠ txSeq s.sender.txState) : exec i s = .next s := by
  rw [exec_of_arrivalOfInstr hi]
  refine receiveAtSender_of_unmatched hr (fun F hF => ?_) src
  cases (acceptableFrame_encodeBytes hardware q a f payload hlen).symm.trans hF
  have hne : zextBit 32 q ≠ zextBit 32 (txSeq s.sender.txState) := zextBit_injective.ne hq
  rw [ackMatches, buildWith, beq_eq_false_iff_ne.2 hne, Bool.and_false]

/-- R195: the acknowledgements of one chunk differ in the scratch they leave alone. -/
theorem takeAck_noteAck_congr {s : State} (hw : txWaiting s.sender.txState = true) (k : Config.Parameters) (wire wire' : List Byte)
    (F F' : Frame) :
    takeAck (noteAck k wire' F' s) =
      { takeAck (noteAck k wire F s) with
        sender := { (takeAck (noteAck k wire F s)).sender with
          common := { (takeAck (noteAck k wire F s)).sender.common with
            crcAcc := (takeAck (noteAck k wire' F' s)).sender.common.crcAcc
            frameIn := (takeAck (noteAck k wire' F' s)).sender.common.frameIn } } } := by
  have hq : s.sender.txState = waitForAckOf (txSeq s.sender.txState) :=
    (txState_cases _).elim (fun h => by simp [h.1] at hw) And.right
  rw [takeAck_of_waitForAckOf (s := noteAck k wire' F' s) hq, takeAck_of_waitForAckOf (s := noteAck k wire F s) hq]
  rfl

/-- Settles O25: the frames are both the acknowledgement of the chunk in hand, or both discarded. -/
theorem senderIgnoresEndPayloadSource : Obligations.SenderIgnoresEndPayloadSource := by
  unfold Obligations.SenderIgnoresEndPayloadSource
  intro s t q f f' payload payload' src src' i i' hi hi' hlen hlen' hw hinit hh ht
  have harr := arrivalOfInstr_of_validFrame rfl hi
  have harr' := arrivalOfInstr_of_validFrame rfl hi'
  have hr := senderReady_of_waiting hinit hh hw
  by_cases hq : q = txSeq s.sender.txState
  · subst hq
    cases (exec_ackFrame_of_matching harr hlen hr).symm.trans ht
    exact ⟨_, exec_ackFrame_of_matching harr' hlen' hr, takeAck_noteAck_congr hw ..⟩
  · cases (exec_frame_of_other_bit harr hlen hr hq).symm.trans ht
    exact ⟨s, exec_frame_of_other_bit harr' hlen' hr hq, rfl⟩

/-- R196: a sender that is not ready leaves its datagram with the transport. -/
theorem receiveAtSender_of_not_ready {k : Config.Parameters} {s : State} (h : senderReady s = false) (wire : List Byte) (src : Addr) :
    receiveAtSender k wire src s = .next (keepInFlight .sender src wire s) :=
  if_neg (by simp [h])

/-- R232: a receiver that is not ready leaves its datagram with the transport. -/
theorem receiveAtReceiver_of_not_ready {k : Config.Parameters} {s : State} (h : receiverReady s = false) (wire : List Byte)
    (src : Addr) : receiveAtReceiver k wire src s = .next (keepInFlight .receiver src wire s) :=
  if_neg (by simp [h])

/-- Settles O26: sender and receiver alike. -/
theorem unreadyLeavesDatagramInFlight : Obligations.UnreadyLeavesDatagramInFlight := by
  unfold Obligations.UnreadyLeavesDatagramInFlight
  refine ⟨fun s wire src i hi h => ?_, fun s wire src i hi h => ?_⟩
  · have hr : senderReady s = false := by
      rcases h with h | h | h
      · simp [senderReady, h]
      · simp [senderReady, h]
      · simp [senderReady, txWaiting_of_waitForCall h]
    rw [exec_of_arrivalOfInstr (arrivalOfInstr_of_wire rfl hi)]
    exact receiveAtSender_of_not_ready hr wire src
  · have hr : receiverReady s = false := by
      rcases h with h | h <;> simp [receiverReady, h]
    rw [exec_of_arrivalOfInstr (arrivalOfInstr_of_wire rfl hi)]
    exact receiveAtReceiver_of_not_ready hr wire src

end Sys2Proof.Machine

namespace Sys2Proof.Machine

open Sys2Proof.Safety

/-! ### What enters the transport (R234 to R240) -/

/-- R234: whatever is drawn, a percentage of 100 triggers its fault and a percentage of 0 does not. -/
theorem faultCandidates_bitError (d : Config.Draw) : faultCandidates ⟨100, 0, 0⟩ d = [.bitError] := by
  simp [faultCandidates, Nat.mod_lt]

theorem faultCandidates_loss (d : Config.Draw) : faultCandidates ⟨0, 100, 0⟩ d = [.loss] := by
  simp [faultCandidates, Nat.mod_lt]

theorem faultCandidates_duplicate (d : Config.Draw) : faultCandidates ⟨0, 0, 100⟩ d = [.duplicate] := by
  simp [faultCandidates, Nat.mod_lt]

/-- R236: a fault that is the only candidate is performed. -/
theorem injectedCopies_of_single {inj : Injector} {d : Config.Draw} {c : FaultKind} (h : faultCandidates inj d = [c])
    (wire : List Byte) : injectedCopies inj d wire = faultAction c d wire := by
  simp [injectedCopies, h, Nat.mod_one]

/-- R212, R213: the whole effect of an accepted frame that is neither a duplicate nor final, and fits. -/
theorem acceptAtReceiver_of_not_final {wire : List Byte} {src : Addr} {F : Frame} {s : State}
    (hdup : isDuplicate s.receiver F = false) (hfits : overflows s.receiver F = false) (hf : isFinal F = false) :
    acceptAtReceiver hardware wire src F s = .next { s with
      receiver := { appendPayload F (recordPeer src s.receiver) with
        common := ackScratch (sequenceBit F) wire s.receiver.common }
      inFlight := s.inFlight ++ addedCopies .receiver ⟨src, s.receiver.common.portAck⟩ (ackBytes (sequenceBit F)) s
      outputs := s.outputs ++ [.sent .receiver ⟨src, s.receiver.common.portAck⟩ (ackBytes (sequenceBit F))]
      free := s.free + 1 } := by
  rw [acceptAtReceiver, hdup, hfits, hf, sendAck_takeIn, frameTaken_of_not_duplicate hdup]
  rfl

/-- R197, R217, R254 (b): an outbound socket that does not work lets nothing into the transport. -/
theorem addedCopies_of_outbound_down {who : Role} {s : State} (h : (sideOf who s).outboundUp = false) (dst : Endpoint)
    (wire : List Byte) : addedCopies who dst wire s = [] := by
  simp [addedCopies, h]

/-- R217: where the outbound socket does not work, an accepted frame that is neither a duplicate nor final is appended, and its
acknowledgement is lost. -/
theorem receiveAtReceiver_of_outbound_down {s : State} {q a : Bool} {payload : List Byte} (hlen : payload.length ≤ 1400)
    (hr : receiverReady s = true) (hdedup : s.receiver.rxDedup = false) (hcap : s.receiver.rxBufMax = none)
    (hout : s.receiverSide.outboundUp = false) (src : Addr) :
    receiveAtReceiver hardware (encodeBytes q a false payload) src s = .next { s with
      receiver := { appendPayload (builtFrame q a false payload) (recordPeer src s.receiver) with
        common := ackScratch q (encodeBytes q a false payload) s.receiver.common }
      outputs := s.outputs ++ [.sent .receiver ⟨src, s.receiver.common.portAck⟩ (ackBytes q)]
      free := s.free + 1 } := by
  have hfits : overflows s.receiver (builtFrame q a false payload) = false := by simp [overflows, hcap]
  rw [receiveAtReceiver_of_acceptable hr (acceptableFrame_encodeBytes hardware q a false payload hlen),
    acceptAtReceiver_of_not_final (isDuplicate_of_not_rxDedup hdedup _) hfits (isFinal_buildWith ..),
    addedCopies_of_outbound_down (who := .receiver) hout, List.append_nil, sequenceBit_buildWith]

/-- Settles O59: the single candidate of each injector, and the acknowledgement that adds nothing. -/
theorem injectorSendCounts : Obligations.InjectorSendCounts := by
  unfold Obligations.InjectorSendCounts
  refine ⟨fun d wire => ⟨injectedCopies_zero d wire, fun hne => ?_, ?_, ?_, fun inj => ?_⟩, ?_⟩
  · exact ⟨_, Nat.mod_lt _ (List.length_pos_iff.2 hne), injectedCopies_of_single (faultCandidates_bitError d) wire⟩
  · exact injectedCopies_of_single (faultCandidates_loss d) wire
  · exact injectedCopies_of_single (faultCandidates_duplicate d) wire
  · exact (injectedCopies_cases inj d wire).imp_right (.imp_left fun h => ⟨_, h⟩)
  · intro s rest src p q a payload hu hr hlen hinit hh hdedup hcap hp hm hin hout
    rw [← hp] at hm ⊢
    have hstart := startBy_datagram (s := { s with agenda := rest }) (dest := .receiver) (Option.isSome_of_eq_some hp) hm hin
    have htaken := receiveAtReceiver_of_outbound_down (q := q) (a := a)
      (s := { s with agenda := rest, inFlight := s.inFlight.erase ⟨ownEndpoint .receiver s, src, encodeBytes q a false payload⟩ })
      hlen (receiverReady_of_started hinit hh) hdedup hcap hout src
    exact ⟨_, (step_of_agenda_cons hu hr).trans (hstart.trans htaken), rfl, rfl, rfl, stored_writeBytes _ _ _⟩

end Sys2Proof.Machine

namespace Sys2Proof.Machine

open Sys2Proof.Safety

/-! ### Delivery (R231, R232) -/

/-- R232: what is addressed to the sender's endpoint goes to the sender. -/
theorem destinationOf_sender {d : Datagram} {s : State} (hp : (ownEndpoint .sender s).port.isSome = true)
    (hd : d.dst = ownEndpoint .sender s) : destinationOf d s = some .sender :=
  if_pos (by simp only [hd, hp, decide_true, Bool.and_self])

/-- R232: what is addressed to the receiver's endpoint, if that is not the sender's, goes to the receiver. -/
theorem destinationOf_receiver {d : Datagram} {s : State} (hp : (ownEndpoint .receiver s).port.isSome = true)
    (hd : d.dst = ownEndpoint .receiver s) (hne : ownEndpoint .receiver s ≠ ownEndpoint .sender s) :
    destinationOf d s = some .receiver := by
  rw [destinationOf, hd, if_neg (by simp only [hne, decide_false, Bool.and_false, Bool.false_eq_true, not_false_eq_true])]
  exact if_pos (by simp only [hp, decide_true, Bool.and_self])

/-- R232: the delivery of a datagram at an inbound socket that works. -/
theorem deliverBy_of_destinationOf {s : State} {n : Nat} {d : Datagram} {dest : Role} (hn : s.inFlight[n]? = some d)
    (hd : destinationOf d s = some dest) (hup : (sideOf dest s).inboundUp = true) :
    deliverBy exec hardware n s = receiveAt hardware dest d.wire d.src { s with inFlight := s.inFlight.eraseIdx n } := by
  have hreceives : receiveFails n s = false := by simp only [receiveFails, hn, hd, hup, Bool.not_true]
  have hpick : pickUp n s = some (.datagram dest d.src d.wire, { s with inFlight := s.inFlight.eraseIdx n }) := by
    simp only [pickUp, hn, hd]
  simp only [deliverBy, hreceives, hpick, Bool.false_eq_true, if_false, performBy_datagram]

/-- R232: the delivery of the only datagram in flight. -/
theorem deliverBy_of_singleton {s : State} {d : Datagram} {dest : Role} (hf : s.inFlight = [d]) (hd : destinationOf d s = some dest)
    (hup : (sideOf dest s).inboundUp = true) :
    deliverBy exec hardware 0 s = receiveAt hardware dest d.wire d.src { s with inFlight := [] } := by
  rw [deliverBy_of_destinationOf (n := 0) (by rw [hf]; rfl) hd hup, hf]
  rfl

/-- R235: over a working link with an injector at 0 one unmodified datagram enters the transport. -/
theorem addedCopies_of_clean {who : Role} {s : State} (h : sideOf who s = ⟨⟨0, 0, 0⟩, true, true⟩) (dst : Endpoint)
    (wire : List Byte) : addedCopies who dst wire s = [⟨dst, (commonOf who s).addr, wire⟩] := by
  simp only [addedCopies, h, if_true, injectedCopies_zero, List.map_cons, List.map_nil]

/-! ### A buffer cut into chunks, and put together again (R188, R212) -/

/-- R212: the chunks up to one, and that one. -/
theorem take_append_chunkBytes (buf : List Byte) (j : Nat) :
    buf.take (1400 * j) ++ chunkBytes buf j = buf.take (1400 * (j + 1)) := by
  rw [chunkBytes, slice, Nat.mul_succ, Nat.add_sub_cancel_left, List.take_add]

/-- R198: the last chunk reaches the end of the buffer. -/
theorem length_le_of_last {len j : Nat} (h : j + 1 = chunkCount len) : len ≤ 1400 * (j + 1) := by
  unfold chunkCount at h
  omega

/-- R212, R216: the receiver `n` has taken in the first `j` chunks of `buf`, and there is room for all of them. -/
structure Collected (buf : List Byte) (j : Nat) (n : Receiver) : Prop where
  length : n.rxLen = 1400 * j
  bytes  : n.rxBuf.readBytes 0 n.rxLen = some (buf.take (1400 * j))
  fresh  : n.rxDedup = true → n.rxLastValid = true → n.rxLastSeq ≠ decide (j % 2 = 1)
  room   : ∀ m, n.rxBufMax = some m → buf.length ≤ m

/-- R198: the frame of the `j`-th chunk of a buffer. -/
def chunkFrame (buf : List Byte) (j : Nat) : Frame :=
  builtFrame (decide (j % 2 = 1)) false (decide (j + 1 = chunkCount buf.length)) (chunkBytes buf j)

/-- R198: its wire bytes. -/
def chunkWire (buf : List Byte) (j : Nat) : List Byte :=
  encodeBytes (decide (j % 2 = 1)) false (decide (j + 1 = chunkCount buf.length)) (chunkBytes buf j)

@[simp] theorem sequenceBit_chunkFrame (buf : List Byte) (j : Nat) : sequenceBit (chunkFrame buf j) = decide (j % 2 = 1) :=
  sequenceBit_buildWith ..

@[simp] theorem isFinal_chunkFrame (buf : List Byte) (j : Nat) :
    isFinal (chunkFrame buf j) = decide (j + 1 = chunkCount buf.length) :=
  isFinal_buildWith ..

@[simp] theorem payload_chunkFrame (buf : List Byte) (j : Nat) : (chunkFrame buf j).payload = chunkBytes buf j := rfl

theorem acceptableFrame_chunkWire (buf : List Byte) (j : Nat) : acceptableFrame (chunkWire buf j) = some (chunkFrame buf j) :=
  acceptableFrame_encodeBytes hardware _ _ _ _ ((chunkBytes_length buf j).trans_le (Nat.min_le_left _ _))

section
variable {buf : List Byte} {j : Nat} {n : Receiver} (h : Collected buf j n)
include h

/-- R216: the next chunk has the other sequence bit. -/
theorem Collected.not_duplicate : isDuplicate n (chunkFrame buf j) = false := by
  rw [isDuplicate, sequenceBit_chunkFrame, Bool.and_eq_false_imp, Bool.and_eq_true_iff]
  exact fun ⟨hd, hv⟩ => beq_eq_false_iff_ne.2 (h.fresh hd hv)

/-- R218: the next chunk fits. -/
theorem Collected.not_overflows (hj : j < chunkCount buf.length) : overflows n (chunkFrame buf j) = false := by
  have hstart := chunkStart_le hj
  refine overflows_eq_false fun m hm => ?_
  have hroom := h.room m hm
  rw [h.length, payload_chunkFrame, chunkBytes_length]
  omega

/-- R212, R216: a chunk that is not the last one is appended. -/
theorem Collected.append (hj : j + 1 < chunkCount buf.length) (src : Addr) (c : Common) :
    Collected buf (j + 1) { appendPayload (chunkFrame buf j) (recordPeer src n) with common := c } where
  length := by
    have hfull := chunkLength_of_not_last hj
    show n.rxLen + (chunkBytes buf j).length = _
    rw [chunkBytes_length, h.length, hfull, Nat.mul_succ]
  bytes := by
    rw [← take_append_chunkBytes]
    exact readBytes_writeBytes_append h.bytes (chunkBytes buf j)
  fresh hd _ := by
    have hdedup : n.rxDedup = true := hd
    show (if n.rxDedup then sequenceBit (chunkFrame buf j) else n.rxLastSeq) ≠ _
    rw [if_pos hdedup, sequenceBit_chunkFrame]
    simp only [ne_eq, decide_eq_decide]
    omega
  room := h.room

end

/-! ### One round over a clean link (R219) -/

/-- R219: the sender at address `a` and the receiver at address `b` are on the ports `p` and `q`, the receiver is started, and their links
work and change nothing. -/
structure CleanLink (a b : Addr) (p q : Port) (x : State) : Prop where
  ports        : p ≠ q
  senderEnd    : ownEndpoint .sender x = ⟨a, some q⟩
  receiverEnd  : ownEndpoint .receiver x = ⟨b, some p⟩
  ackPort      : x.receiver.common.portAck = some q
  ready        : receiverReady x = true
  senderSide   : x.senderSide = ⟨⟨0, 0, 0⟩, true, true⟩
  receiverSide : x.receiverSide = ⟨⟨0, 0, 0⟩, true, true⟩

/-- R219: over a clean link, `j` chunks of `buf` have been sent, taken in and acknowledged, and nothing is in flight. -/
structure CleanAt (buf : List Byte) (a b : Addr) (p q : Port) (j : Nat) (x : State) : Prop where
  link     : CleanLink a b p q x
  sender   : AtChunk buf ⟨b, some p⟩ j x.sender
  receiver : Collected buf j x.receiver
  inFlight : x.inFlight = []

/-- R212 to R214: the receiver's registers `n` once the `j`-th chunk of `buf` has been taken in. -/
def chunkTaken (buf : List Byte) (a : Addr) (j : Nat) (n : Receiver) : Receiver :=
  (if j + 1 = chunkCount buf.length then clearCycle else id)
    { appendPayload (chunkFrame buf j) (recordPeer a n) with
      common := ackScratch (decide (j % 2 = 1)) (chunkWire buf j) n.common }

/-- R60 (d): the sender's registers with `FRAME_IN` as the acknowledgement of sequence bit `bit` leaves it. -/
def withAckIn (bit : Bool) (n : Sender) : Sender :=
  { n with common := { n.common with frameIn := Memory.writeBytes [] 0 (ackBytes bit) } }

/-- R219: what one round hands over. -/
def roundOutputs (buf : List Byte) (a b : Addr) (p q : Port) (j : Nat) : List Output :=
  chunkOutput hardware ⟨b, some p⟩ buf j :: .sent .receiver ⟨a, some q⟩ (ackBytes (decide (j % 2 = 1))) ::
    if j + 1 = chunkCount buf.length then [.delivered buf, .done] else []

/-- R214: a round delivers the buffer when its chunk is the last one, and else nothing. -/
theorem filter_isDelivery_roundOutputs (buf : List Byte) (a b : Addr) (p q : Port) (j : Nat) :
    (roundOutputs buf a b p q j).filter isDelivery = if j + 1 = chunkCount buf.length then [.delivered buf] else [] := by
  unfold roundOutputs
  split <;> rfl

/-- R192: the round of the last chunk ends with `done`. -/
theorem getLast?_roundOutputs_of_last {buf : List Byte} {j : Nat} (h : j + 1 = chunkCount buf.length) (a b : Addr) (p q : Port) :
    (roundOutputs buf a b p q j).getLast? = some .done := by
  rw [roundOutputs, if_pos h]
  rfl

section
variable {buf : List Byte} {a b : Addr} {p q : Port} {j : Nat} {x : State}

/-- R189: a round begins with the sending of the chunk. -/
theorem CleanAt.exec_txSendPacket (h : CleanAt buf a b p q j x) (hj : j < chunkCount buf.length) :
    ∃ acc out, exec .txSendPacket x = .next { x with
      sender := chunkSent (decide (j % 2 = 1)) acc out x.sender
      inFlight := [⟨⟨b, some p⟩, a, chunkWire buf j⟩]
      outputs := x.outputs ++ [chunkOutput hardware ⟨b, some p⟩ buf j]
      free := x.free + 1 } := by
  obtain ⟨hl, hn, -, hf⟩ := h
  have hle : x.sender.txSent ≤ x.sender.txLen := by rw [hn.sent, hn.length]; exact chunkStart_le hj
  have hsend := exec_txSendPacket_of_calling hn.running hn.active hn.calling hn.seqBit hle hn.readBytes_eq
  have haddr : (commonOf .sender x).addr = a := congrArg Endpoint.addr hl.senderEnd
  rw [hn.chunkSend_eq hj, hn.chunkFinal_eq hj, hn.endpoint, addedCopies_of_clean (who := .sender) hl.senderSide, hf, haddr] at hsend
  exact ⟨_, _, hsend⟩

/-- R212 to R214: the datagram of the chunk is delivered, taken in and acknowledged. -/
theorem CleanLink.deliver_chunk (hl : CleanLink a b p q x) (hcol : Collected buf j x.receiver) (hj : j < chunkCount buf.length)
    (hf : x.inFlight = [⟨⟨b, some p⟩, a, chunkWire buf j⟩]) :
    deliverBy exec hardware 0 x = .next { x with
      receiver := chunkTaken buf a j x.receiver
      inFlight := [⟨⟨a, some q⟩, b, ackBytes (decide (j % 2 = 1))⟩]
      outputs := x.outputs ++ [.sent .receiver ⟨a, some q⟩ (ackBytes (decide (j % 2 = 1)))] ++
        (if j + 1 = chunkCount buf.length then [.delivered buf] else [])
      free := x.free + 1 } := by
  have hdest : destinationOf ⟨⟨b, some p⟩, a, chunkWire buf j⟩ x = some .receiver := by
    refine destinationOf_receiver (by rw [hl.receiverEnd]; rfl) hl.receiverEnd.symm ?_
    rw [hl.receiverEnd, hl.senderEnd]
    exact fun he => hl.ports (by simpa using congrArg Endpoint.port he)
  have hdeliver := deliverBy_of_singleton hf hdest (by rw [sideOf_receiver, hl.receiverSide])
  have haccept := receiveAtReceiver_of_acceptable (s := { x with inFlight := [] }) hl.ready (acceptableFrame_chunkWire buf j) a
  have hnew := acceptAtReceiver_of_new (s := { x with inFlight := [] }) (wire := chunkWire buf j) (src := a)
    hcol.not_duplicate (hcol.not_overflows hj) hcol.bytes
  have haddr : x.receiver.common.addr = b := congrArg Endpoint.addr hl.receiverEnd
  refine (hdeliver.trans (haccept.trans hnew)).trans ?_
  simp only [isFinal_chunkFrame, sequenceBit_chunkFrame, payload_chunkFrame, take_append_chunkBytes, hl.ackPort, decide_eq_true_eq,
    addedCopies_of_clean (who := .receiver) (s := { x with inFlight := [] }) hl.receiverSide, commonOf_receiver, haddr,
    List.nil_append, chunkTaken]
  by_cases hlast : j + 1 = chunkCount buf.length
  · rw [List.take_of_length_le (length_le_of_last hlast)]
  · simp only [if_neg hlast]

/-- R191, R192: the acknowledgement changes the sender's registers and the outputs alone. -/
theorem takeAck_eq_of_chunkSent {bit : Bool} {acc : Crc} {out : Memory} {n : Sender} (h : x.sender = chunkSent bit acc out n) :
    takeAck x = { x with
      sender := chunkAcked bit acc out n
      outputs := x.outputs ++ if chunkFinal n then [.done] else [] } := by
  obtain ⟨hs, ho⟩ := takeAck_of_chunkSent h
  rw [← hs, ← ho]
  unfold takeAck finishTransfer
  split <;> [split; skip] <;> rfl

/-- `FRAME_IN` is scratch: a transfer does not depend on it. -/
theorem AtChunk.withAckIn {dst : Endpoint} {n : Sender} (h : AtChunk buf dst j n) (bit : Bool) :
    AtChunk buf dst j (withAckIn bit n) :=
  ⟨h.initDone, h.running, h.active, h.calling, h.seqBit, h.length, h.sent, h.endpoint, h.buffer⟩

/-- R194: the datagram of the acknowledgement is delivered and accepted. -/
theorem deliver_ack {bit : Bool} {acc : Crc} {out : Memory} {n : Sender} (hend : ownEndpoint .sender x = ⟨a, some q⟩)
    (hside : x.senderSide = ⟨⟨0, 0, 0⟩, true, true⟩) (hs : x.sender = chunkSent bit acc out n) (hi : n.common.initDone = true)
    (hh : n.common.halted = false) (hf : x.inFlight = [⟨⟨a, some q⟩, b, ackBytes bit⟩]) :
    deliverBy exec hardware 0 x = .next { x with
      sender := chunkAcked bit (ackChecksum bit ^^^ 0xFFFFFFFF) out (withAckIn bit n)
      inFlight := []
      outputs := x.outputs ++ if chunkFinal n then [.done] else [] } := by
  have hdest : destinationOf ⟨⟨a, some q⟩, b, ackBytes bit⟩ x = some .sender :=
    destinationOf_sender (by rw [hend]; rfl) hend.symm
  have hdeliver := deliverBy_of_singleton hf hdest (by rw [sideOf_sender, hside])
  have hstate : x.sender.txState = waitForAckOf bit := by rw [hs]; rfl
  have hready : senderReady { x with inFlight := [] } = true :=
    senderReady_of_waiting (by rw [hs]; exact hi) (by rw [hs]; exact hh) (by rw [hstate, txWaiting_waitForAckOf])
  have haccept : acceptWith hardware (ackBytes bit) = some (builtFrame bit true false []) := by
    rw [← encodeWith_ack]
    exact acceptableFrame_encodeBytes hardware bit true false [] (Nat.zero_le _)
  have hmatch : ackMatches (builtFrame bit true false []) x.sender.txState = true := by
    rw [hstate]
    simpa using ackMatches_buildWith hardware false [] (waitForAckOf bit)
  have hnoted : (noteAck hardware (ackBytes bit) (builtFrame bit true false []) { x with inFlight := [] }).sender =
      chunkSent bit (ackChecksum bit ^^^ 0xFFFFFFFF) out (withAckIn bit n) := by
    rw [noteAck_sender, crcAfter_ack, hs]
    rfl
  refine (hdeliver.trans (receiveAtSender_of_matching hready haccept hmatch b)).trans ?_
  rw [takeAck_eq_of_chunkSent hnoted]
  rfl

/-- R219: the whole effect of one round. -/
theorem CleanAt.cleanRound_eq (h : CleanAt buf a b p q j x) (hj : j < chunkCount buf.length) :
    ∃ out, cleanRound x = .next { x with
      sender := chunkAcked (decide (j % 2 = 1)) (ackChecksum (decide (j % 2 = 1)) ^^^ 0xFFFFFFFF) out
        (withAckIn (decide (j % 2 = 1)) x.sender)
      receiver := chunkTaken buf a j x.receiver
      inFlight := []
      outputs := x.outputs ++ roundOutputs buf a b p q j
      free := x.free + 1 + 1 } := by
  obtain ⟨acc, out, hsend⟩ := h.exec_txSendPacket hj
  obtain ⟨hl, hn, hcol, -⟩ := h
  have houts : x.outputs ++ [chunkOutput hardware ⟨b, some p⟩ buf j] ++
      [.sent .receiver ⟨a, some q⟩ (ackBytes (decide (j % 2 = 1)))] ++
      (if j + 1 = chunkCount buf.length then [.delivered buf] else []) ++ (if chunkFinal x.sender then [.done] else []) =
      x.outputs ++ roundOutputs buf a b p q j := by
    rw [hn.chunkFinal_eq hj, roundOutputs]
    by_cases hlast : j + 1 = chunkCount buf.length <;> simp [hlast]
  refine ⟨out, ?_⟩
  rw [← houts]
  exact andThen_next.2 ⟨_, andThen_next.2 ⟨_, hsend, CleanLink.deliver_chunk
    ⟨hl.ports, hl.senderEnd, hl.receiverEnd, hl.ackPort, hl.ready, hl.senderSide, hl.receiverSide⟩ hcol hj rfl⟩,
    deliver_ack hl.senderEnd hl.senderSide rfl hn.initDone hn.running rfl⟩

/-- R191, R212: a round at a chunk that is not the last one leads to the next chunk. -/
theorem CleanAt.cleanRound_succ (h : CleanAt buf a b p q j x) (hj : j + 1 < chunkCount buf.length) :
    ∃ y, cleanRound x = .next y ∧ CleanAt buf a b p q (j + 1) y ∧ y.outputs = x.outputs ++ roundOutputs buf a b p q j := by
  obtain ⟨out, hround⟩ := h.cleanRound_eq (by omega)
  obtain ⟨hl, hn, hcol, -⟩ := h
  have hmid : ¬ j + 1 = chunkCount buf.length := by omega
  rw [chunkTaken, if_neg hmid] at hround
  refine ⟨_, hround, ⟨?_, (hn.withAckIn _).chunkAcked_succ hj _ out, hcol.append hj a _, rfl⟩, rfl⟩
  exact ⟨hl.ports, hl.senderEnd, hl.receiverEnd, hl.ackPort, hl.ready, hl.senderSide, hl.receiverSide⟩

/-- R192, R214, R272: a round at the last chunk ends the transfer, the cycle and the run. -/
theorem CleanAt.cleanRound_last (h : CleanAt buf a b p q j x) (hj : j + 1 = chunkCount buf.length) :
    ∃ y, cleanRound x = .next y ∧ y.receiver.rxPeer = a ∧ runOver y = true ∧
      y.outputs = x.outputs ++ roundOutputs buf a b p q j := by
  obtain ⟨out, hround⟩ := h.cleanRound_eq (by omega)
  obtain ⟨hactive, -⟩ := (h.sender.withAckIn (decide (j % 2 = 1))).chunkAcked_last hj (decide (j % 2 = 1))
    (ackChecksum (decide (j % 2 = 1)) ^^^ 0xFFFFFFFF) out
  rw [chunkTaken, if_pos hj] at hround
  refine ⟨_, hround, rfl, ?_, rfl⟩
  simp only [runOver, quiescent, hactive]
  rfl

/-- R219: the rounds from chunk `j` to the last one; by induction on the number of chunks still to send. -/
theorem CleanAt.cleanRounds_rest {m : Nat} (h : CleanAt buf a b p q j x) (hm : j + (m + 1) = chunkCount buf.length) :
    ∃ u outs, cleanRounds (m + 1) x = .next u ∧ u.outputs = x.outputs ++ outs ∧ outs.filter isDelivery = [.delivered buf] ∧
      outs.getLast? = some .done ∧ u.receiver.rxPeer = a ∧ runOver u = true := by
  induction m generalizing j x with
  | zero =>
    obtain ⟨y, hy, hpeer, hover, ho⟩ := h.cleanRound_last hm
    refine ⟨y, _, andThen_next.2 ⟨y, hy, rfl⟩, ho, ?_, getLast?_roundOutputs_of_last hm .., hpeer, hover⟩
    rw [filter_isDelivery_roundOutputs, if_pos hm]
  | succ m ih =>
    obtain ⟨y, hy, hnext, ho⟩ := h.cleanRound_succ (by omega)
    obtain ⟨u, outs, hu, hou, hdelivered, hdone, hend⟩ := ih hnext (by omega)
    refine ⟨u, _, andThen_next.2 ⟨y, hy, hu⟩, by rw [hou, ho, List.append_assoc], ?_, ?_, hend⟩
    · rw [List.filter_append, filter_isDelivery_roundOutputs, if_neg (by omega), hdelivered, List.nil_append]
    · rw [List.getLast?_append, hdone]
      rfl

end

/-- Settles O40: an accepted load stands in front of chunk 0 on a clean link, and each round leads from a chunk to the next one. -/
theorem cleanTransferDeliversBuffer : Obligations.CleanTransferDeliversBuffer := by
  unfold Obligations.CleanTransferDeliversBuffer
  intro s t buf p q hpq hi hh ha hdata hack hri hrh hlen hrdata hrack hfresh hroom hss hrs hf hload
  obtain rfl := Host.Outcome.next.inj ((execTxLoad_of_idle hi hh ha).symm.trans hload)
  obtain ⟨m, hm⟩ : ∃ m, chunkCount buf.length = m + 1 := ⟨_, (Nat.sub_add_cancel (Nat.le_max_left _ _)).symm⟩
  have hstart : CleanAt buf s.sender.common.addr s.receiver.common.addr p q 0
      (emit (.result .sender .accepted) (mapSender (loadTransfer buf s.receiver.common.addr) s)) :=
    { link := ⟨hpq, by rw [← hack]; rfl, by rw [← hrdata]; rfl, hrack, receiverReady_of_started hri hrh, hss, hrs⟩
      sender := by rw [← hdata]; exact atChunk_zero_loadTransfer buf _ hi hh
      receiver := ⟨hlen, by rw [emit_receiver, mapSender_receiver, hlen]; rfl, fun hd hv => (nomatch (hfresh hd).symm.trans hv), hroom⟩
      inFlight := hf }
  obtain ⟨u, outs, hu, ho, hdelivered, hdone, hpeer, hover⟩ := hstart.cleanRounds_rest (m := m) (by omega)
  refine ⟨u, hm ▸ hu, ?_, ?_, hpeer, hover⟩
  · rw [ho, List.drop_left, hdelivered]
  · rw [ho, List.getLast?_append, hdone]
    rfl

end Sys2Proof.Machine

namespace Sys2Proof.Machine

open Sys2Proof.Safety

/-! ### Duplicates and overflow at the receiver (R216, R218) -/

/-- R212: a started receiver takes a valid frame, as its frame kind or as RX.RECV of its bytes. -/
theorem exec_validFrame_receiver {i : Instr} {s : State} {src : Addr} {q a f : Bool} {payload : List Byte}
    (hi : i ∈ [frameKind q a f .receiver src (rightChecksum q a f payload) payload, .rxRecv (encodeBytes q a f payload) src])
    (hlen : payload.length ≤ 1400) (hinit : s.receiver.common.initDone = true) (hhalt : s.receiver.common.halted = false) :
    exec i s = acceptAtReceiver hardware (encodeBytes q a f payload) src (builtFrame q a f payload) s := by
  rw [exec_of_arrivalOfInstr (arrivalOfInstr_of_validFrame rfl hi)]
  exact receiveAtReceiver_of_acceptable (receiverReady_of_started hinit hhalt) (acceptableFrame_encodeBytes hardware q a f payload hlen) src

theorem payload_buildWith (k : Config.Parameters) (q a f : Bool) (payload : List Byte) :
    (buildWith k q a f payload).payload = payload := rfl

/-- R216: what makes a built frame a duplicate. -/
theorem isDuplicate_buildWith_eq_true {n : Receiver} (hd : n.rxDedup = true) (hv : n.rxLastValid = true)
    (k : Config.Parameters) (a f : Bool) (payload : List Byte) : isDuplicate n (buildWith k n.rxLastSeq a f payload) = true := by
  simp [isDuplicate, sequenceBit_buildWith, hd, hv]

/-- R212, R216: when a built frame is no duplicate. -/
theorem isDuplicate_buildWith_eq_false {n : Receiver} {q : Bool}
    (h : n.rxDedup = false ∨ n.rxLastValid = false ∨ n.rxLastSeq = !q) (k : Config.Parameters) (a f : Bool) (payload : List Byte) :
    isDuplicate n (buildWith k q a f payload) = false := by
  rw [isDuplicate, sequenceBit_buildWith]
  rcases h with h | h | h <;> simp [h]

/-- R218: a payload beyond a finite capacity overflows. -/
theorem overflows_eq_true {n : Receiver} {F : Frame} {m : Nat} (hmax : n.rxBufMax = some m)
    (hbig : m < n.rxLen + F.payload.length) : overflows n F = true := by
  rw [overflows, hmax]
  exact decide_eq_true hbig

/-- R216: what a duplicate makes of the registers. -/
theorem frameTaken_of_duplicate {F : Frame} {n : Receiver} (h : isDuplicate n F = true) (src : Addr) (c : Common) :
    frameTaken F src c n = { recordPeer src n with common := c } := by
  simp [frameTaken, h]

/-- R216: the whole effect of a duplicate, whatever its payload, its END flag and the capacity (log 11). -/
theorem acceptAtReceiver_of_duplicate {F : Frame} {s : State} (hdup : isDuplicate s.receiver F = true) (wire : List Byte)
    (src : Addr) :
    acceptAtReceiver hardware wire src F s = .next { s with
      receiver := { recordPeer src s.receiver with common := ackScratch (sequenceBit F) wire s.receiver.common }
      inFlight := s.inFlight ++ addedCopies .receiver ⟨src, s.receiver.common.portAck⟩ (ackBytes (sequenceBit F)) s
      outputs := s.outputs ++ [.sent .receiver ⟨src, s.receiver.common.portAck⟩ (ackBytes (sequenceBit F))]
      free := s.free + 1 } := by
  rw [acceptAtReceiver, hdup, sendAck_takeIn, frameTaken_of_duplicate hdup]
  rfl

/-- R218: a frame that is no duplicate and does not fit is only reported. -/
theorem acceptAtReceiver_of_overflow {F : Frame} {s : State} (hdup : isDuplicate s.receiver F = false)
    (hover : overflows s.receiver F = true) (k : Config.Parameters) (wire : List Byte) (src : Addr) :
    acceptAtReceiver k wire src F s = .next (emit (.error .receiver .bufferOverflow) s) := by
  rw [acceptAtReceiver, hdup, hover]
  rfl

/-- Settles O20: the frame is a duplicate, so it is acknowledged and not appended. -/
theorem duplicateIsAcknowledgedOnly : Obligations.DuplicateIsAcknowledgedOnly := by
  unfold Obligations.DuplicateIsAcknowledgedOnly
  rintro s src q a f payload i hi hlen hinit hhalt hdedup hvalid rfl
  have hdup := isDuplicate_buildWith_eq_true hdedup hvalid hardware a f payload
  refine ⟨_, _, stored_writeBytes _ _ _, holdsExactly_writeBytes _, ?_⟩
  rw [exec_validFrame_receiver hi hlen hinit hhalt, acceptAtReceiver_of_duplicate hdup, sequenceBit_buildWith]
  rfl

/-- Settles O21: the frame is no duplicate and fits, so it is appended and acknowledged, and its bit is noted. -/
theorem dedupTracksSequenceBit : Obligations.DedupTracksSequenceBit := by
  unfold Obligations.DedupTracksSequenceBit
  intro s src q a f payload old i hi hlen hinit hhalt hdedup hnew hcap hold
  have hdup := isDuplicate_buildWith_eq_false (.inr hnew) hardware a f payload
  have hfits : overflows s.receiver (builtFrame q a f payload) = false := overflows_eq_false hcap
  refine ⟨_, _, _, stored_writeBytes _ _ _, stored_writeBytes _ _ _, holdsExactly_writeBytes _, ?_⟩
  rw [exec_validFrame_receiver hi hlen hinit hhalt, acceptAtReceiver_of_new hdup hfits hold, isFinal_buildWith, sequenceBit_buildWith]
  cases f <;> simp [appendPayload, recordPeer, clearCycle, ackScratch, hdedup, sequenceBit_buildWith, payload_buildWith]

/-- Settles O22: the frame is no duplicate, and the capacity is tested before anything is written. -/
theorem overflowLeavesReceiverAlone : Obligations.OverflowLeavesReceiverAlone := by
  unfold Obligations.OverflowLeavesReceiverAlone
  intro s src q a f payload m i hi hlen hinit hhalt hnew hmax hbig
  have hdup := isDuplicate_buildWith_eq_false hnew hardware a f payload
  have hover : overflows s.receiver (builtFrame q a f payload) = true := overflows_eq_true hmax hbig
  rw [exec_validFrame_receiver hi hlen hinit hhalt, acceptAtReceiver_of_overflow hdup hover]

end Sys2Proof.Machine

namespace Sys2Proof.Machine

/-! ### A delivery that starts nothing (R232, R254) -/

/-- R232: a datagram without a port, or to neither own endpoint, has no destination. -/
theorem destinationOf_eq_none {d : Datagram} {s : State}
    (h : d.dst.port = none ∨ (d.dst ≠ ownEndpoint .sender s ∧ d.dst ≠ ownEndpoint .receiver s)) : destinationOf d s = none := by
  rcases h with hp | ⟨hs, hr⟩
  · simp [destinationOf, hp]
  · simp [destinationOf, -ownEndpoint_sender, -ownEndpoint_receiver, hs, hr]

/-- R254 (c): at an inbound socket that does not work the datagram stays where it is. -/
theorem deliverBy_of_inbound_down {s : State} {n : Nat} {d : Datagram} {dest : Role} (hn : s.inFlight[n]? = some d)
    (hd : destinationOf d s = some dest) (hdown : (sideOf dest s).inboundUp = false) (ex : Instr → State → Outcome)
    (k : Config.Parameters) : deliverBy ex k n s = .next s :=
  if_pos (by simp only [receiveFails, hn, hd, hdown, Bool.not_false])

/-- R232: a datagram to neither side is never delivered. -/
theorem deliverBy_of_no_destination {s : State} {n : Nat} {d : Datagram} (hn : s.inFlight[n]? = some d)
    (hd : destinationOf d s = none) (ex : Instr → State → Outcome) (k : Config.Parameters) :
    deliverBy ex k n s = .refused (.notEnabled .transport) := by
  have hreceives : receiveFails n s = false := by simp only [receiveFails, hn, hd]
  have hpick : pickUp n s = none := by simp only [pickUp, hn, hd]
  simp only [deliverBy, hreceives, hpick, Bool.false_eq_true, if_false]

/-- R69: the two sides receive at different endpoints if their addresses or the two ports differ. -/
theorem ownEndpoint_receiver_ne_sender {s : State} {p : Port} (hp : s.receiver.common.portData = some p)
    (h : s.sender.common.addr ≠ s.receiver.common.addr ∨ s.sender.common.portAck ≠ some p) :
    ownEndpoint .receiver s ≠ ownEndpoint .sender s := by
  intro heq
  obtain ⟨haddr, hport⟩ := Endpoint.mk.inj heq
  exact h.elim (· haddr.symm) (· (hport.symm.trans hp))

/-- Settles O53: the side the datagram is addressed to, then whether that side's inbound socket works. -/
theorem deliveryStartsReceive : Obligations.DeliveryStartsReceive := by
  unfold Obligations.DeliveryStartsReceive
  intro s k rest d p hu ha hk
  have hsender (hd : d.dst = ⟨s.sender.common.addr, some p⟩) (hp : s.sender.common.portAck = some p) :
      destinationOf d { s with agenda := rest } = some .sender :=
    destinationOf_sender (Option.isSome_of_eq_some hp) (hd.trans (by rw [← hp]; rfl))
  have hreceiver (hd : d.dst = ⟨s.receiver.common.addr, some p⟩) (hp : s.receiver.common.portData = some p)
      (hne : s.sender.common.addr ≠ s.receiver.common.addr ∨ s.sender.common.portAck ≠ some p) :
      destinationOf d { s with agenda := rest } = some .receiver :=
    destinationOf_receiver (Option.isSome_of_eq_some hp) (hd.trans (by rw [← hp]; rfl)) (ownEndpoint_receiver_ne_sender hp hne)
  have hflight : ({ s with agenda := rest } : State).inFlight[k]? = some d := hk
  rw [step_of_agenda_cons hu ha, eventBy]
  refine ⟨fun hd hp hup => ?_, fun hd hp hne hup => ?_, fun hd hp hdown => ?_, fun hd hp hne hdown => ?_, fun h => ?_⟩
  · exact deliverBy_of_destinationOf hflight (hsender hd hp) hup
  · exact deliverBy_of_destinationOf hflight (hreceiver hd hp hne) hup
  · exact deliverBy_of_inbound_down hflight (hsender hd hp) hdown _ _
  · exact deliverBy_of_inbound_down hflight (hreceiver hd hp hne) hdown _ _
  · exact deliverBy_of_no_destination hflight (destinationOf_eq_none h) _ _

/-! ### The construction of a fault injector (R233, R240, R252) -/

/-- R240: with every percentage between 0 and 100 none is offending. -/
theorem badPercentage_eq_none {x y z : Int} (h : 0 ≤ x ∧ x ≤ 100 ∧ 0 ≤ y ∧ y ≤ 100 ∧ 0 ≤ z ∧ z ≤ 100) :
    badPercentage x y z = none := by
  simp only [badPercentage, List.find?_eq_none, List.forall_mem_cons, Bool.or_eq_true, decide_eq_true_eq]
  simp only [List.not_mem_nil, false_implies, implies_true, and_true]
  omega

/-- R250: an offending value is one of the three percentages, and it is out of range. -/
theorem badPercentage_eq_some {x y z v : Int} (h : badPercentage x y z = some v) :
    (v = x ∨ v = y ∨ v = z) ∧ (v < 0 ∨ 100 < v) :=
  ⟨by simpa using List.mem_of_find?_eq_some h, by simpa using List.find?_some h⟩

/-- R240: with a percentage out of range there is an offending value. -/
theorem exists_badPercentage {x y z : Int} (h : ¬(0 ≤ x ∧ x ≤ 100 ∧ 0 ≤ y ∧ y ≤ 100 ∧ 0 ≤ z ∧ z ≤ 100)) :
    ∃ v, badPercentage x y z = some v := by
  rw [← Option.isSome_iff_exists, badPercentage, List.find?_isSome]
  simp only [List.mem_cons, List.not_mem_nil, or_false, exists_eq_or_imp, exists_eq_left, Bool.or_eq_true, decide_eq_true_eq]
  omega

/-- The events still to come are not among the registers of a side. -/
theorem commonOf_withAgenda (who : Role) (s : State) (rest : List Event) :
    commonOf who { s with agenda := rest } = commonOf who s := by
  cases who <;> rfl

/-- R240, log 35: once its side has performed CFG.INIT an injector is no longer constructed. -/
theorem runConstruct_of_initDone {who : Role} {s : State} (h : (commonOf who s).initDone = true) (x y z : Int) :
    runConstruct who x y z s = .refused (.notEnabled .construct) :=
  if_neg (by simp [constructEnabled, h])

/-- R233: before that it has the percentages given, or its construction fails with the offending one. -/
theorem runConstruct_of_not_initDone {who : Role} {s : State} (h : (commonOf who s).initDone = false) (x y z : Int) :
    runConstruct who x y z s =
      (badPercentage x y z).elim (.next (mapSide who (fun v => { v with injector := ⟨x.toNat, y.toNat, z.toNat⟩ }) s))
        fun v => raiseError who (.invalidConfiguration v) s := by
  rw [runConstruct, if_pos (by simp [constructEnabled, h])]
  cases badPercentage x y z <;> rfl

/-! ### The environment's events (R231, R254, R293) -/

/-- Settles O60: each event by its own function, on the state without that event. -/
theorem environmentEvents : Obligations.EnvironmentEvents := by
  unfold Obligations.EnvironmentEvents
  intro s rest k d e wire who up x y z hu
  have hstep {ev : Event} (ha : s.agenda = ev :: rest) : step s = eventBy exec hardware ev { s with agenda := rest } :=
    step_of_agenda_cons hu ha
  refine ⟨fun hk => ⟨fun ha => ?_, fun ha => ?_, fun ha => ?_⟩, hstep, hstep, hstep, fun ha hi => ?_, fun ha hi => ?_⟩
  · obtain ⟨hlt, -⟩ := List.getElem?_eq_some_iff.1 hk
    exact (hstep ha).trans (if_pos hlt)
  · simp only [hstep ha, eventBy, runTransport, hk]
  · simp only [hstep ha, eventBy, runTransport, hk]
  · exact (hstep ha).trans (runConstruct_of_initDone (by rwa [commonOf_withAgenda]) x y z)
  · rw [hstep ha, eventBy, runConstruct_of_not_initDone (by rwa [commonOf_withAgenda])]
    refine ⟨fun h => ?_, fun h => ?_⟩
    · rw [badPercentage_eq_none h]
      rfl
    · obtain ⟨v, hv⟩ := exists_badPercentage h
      obtain ⟨hone, hout⟩ := badPercentage_eq_some hv
      exact ⟨v, hone, hout, by rw [hv]; rfl⟩

end Sys2Proof.Machine
